-- ==== Sys2Proof/Word.lean ====
section
/-! DEFINITION. The word types of the HV2408 manual: bytes, the 32-bit and 64-bit values that software sees, the
64-byte ring record and the 64-bit ECC word. -/

namespace Sys2Proof

/-- One byte of host memory or of buffer memory. -/
abbrev Byte := BitVec 8

/-- A 32-bit value that software sees: a tag, a mark value, a CRC, a count of the 1 µs timebase. -/
abbrev Word32 := BitVec 32

/-- A host address (R50: 0 to 2^64 - 1, formed modulo 2^64). -/
abbrev HostAddr := BitVec 64

/-- One 64-byte ring entry, a descriptor (R177) or an administrative command (R178). Byte `n` of the entry is bits
`8 n` to `8 n + 7`, since every multi-byte field is little-endian. -/
abbrev Record := BitVec 512

end Sys2Proof
end

