-- ==== Sys2Proof/Config.lean ====
section
/-! DEFINITION. What one HV2408 part fixes and what the manual leaves open. The open values are constants with no
body: nothing can be proved of them, and a statement holds whatever they are. -/

namespace Sys2Proof.Config

/-- The revision byte of IDENT (R176 gives the field and no value). FREE VALUE, log entry 2. -/
opaque revision : BitVec 8

/-- Which of several drain triggers found standing in one happening is taken first (R155, R163, R174 name the triggers
and give no order among them when one self-refresh exit finds several). FREE VALUE, log entry 3: applied to the counter
`State.freeCount`, so that each use is a fresh choice. -/
opaque firstTrigger : Nat → Nat

/-- Number of tenths of a microsecond in one tick of the 1 µs timebase. -/
abbrev tenthsPerMicro : Nat := 10

/-- Number of tenths of a microsecond in one millisecond. -/
abbrev tenthsPerMilli : Nat := 10000

end Sys2Proof.Config
end

