-- ==== Sys2Proof/Syntax.lean ====
section
/-! DEFINITION. The commands of the HV2408: one constructor of `Instr` for each row of spec/opcode_table.json, with the
values that reach the controller from outside in that step. The fields of an administrative command are not operands:
they lie in the 64-byte record that the Admin Processor takes from its fetched queue (R134, R178). -/

namespace Sys2Proof

/-- The condition in which the array yields one ECC word (R103). -/
inductive WordCondition where
  | good
  | corrected
  | uncorrectable
  deriving DecidableEq, Repr

/-- What the array yields for one ECC word of a read (R103). `data` is `none` where the word reads as it was last
written, and `some d` where the array delivers `d` (a word never written since power-on, or three or more bit errors). -/
structure Finding where
  condition : WordCondition
  data      : Option (BitVec 64)
  deriving DecidableEq, Repr

/-- A word that reads good, as last written. -/
def Finding.asWritten : Finding := { condition := .good, data := none }

/-- The three values of the ADMIN_RING register (R128). -/
inductive AdminRingField where
  | submissionBase
  | completionBase
  | size
  deriving DecidableEq, Repr

/-- Which bytes of an 8-byte register one access covers (R175): an 8-byte access, or the lower or upper 4 bytes. -/
inductive AccessPart where
  | whole
  | low
  | high
  deriving DecidableEq, Repr

/-- The number of interrupt vectors the host grants (R167). -/
inductive VectorsGranted where
  | one
  | two
  | four
  | eight
  | sixteen
  deriving DecidableEq, Repr

/-- Where a waiting completion stands: handed over by the Admin Processor (R83), or at the head of the queue of the
channel with this index (R82, R158). Index `n` is channel id `n + 1`. -/
inductive CompletionSource where
  | admin
  | channel (c : Fin 16)
  deriving DecidableEq, Repr

/-- One command of the controller: one row of spec/opcode_table.json. A channel operand is an index 0 to 15 for the
channel ids 1 to 16. -/
inductive Instr where
  /-- POWER_ON (R149). -/
  | powerOn
  /-- MEMORY_INITIALISATION (R109): the end of the 200 µs array start-up, with its outcome. -/
  | memoryInitialisation (success : Bool)
  /-- WARM_START (R162). -/
  | warmStart
  /-- CORE_LOGIC_POWER_DOWN (R162). -/
  | coreLogicPowerDown
  /-- PWR_WARN_ASSERTED (R155). -/
  | pwrWarnAsserted
  /-- LINK_DOWN (R173). -/
  | linkDown
  /-- LINK_UP (R173). -/
  | linkUp
  /-- LINK_RESET (R174). -/
  | linkReset
  /-- MESSAGE_ENABLE (R167): the configuration write, with the enable and the number of vectors granted. -/
  | messageEnable (enabled : Bool) (granted : VectorsGranted)
  /-- ENABLE (R152, R163): a CONTROL write of code 1. -/
  | enable
  /-- QUIESCE (R153): a CONTROL write of code 2. -/
  | quiesce
  /-- FUNCTION_RESET (R154): a CONTROL write of code 3. -/
  | functionReset
  /-- ADMIN_RING_WRITE (R128, R175): one access to one value of ADMIN_RING; a 4-byte access uses the low 32 bits. -/
  | adminRingWrite (field : AdminRingField) (part : AccessPart) (value : BitVec 64)
  /-- NOTIFY_SQ_TAIL (R27, R130). -/
  | notifySqTail (ring : BitVec 8) (index : BitVec 16)
  /-- NOTIFY_CQ_HEAD (R84). -/
  | notifyCqHead (ring : BitVec 8) (index : BitVec 16)
  /-- HEARTBEAT_WRITE (R141): the 32-bit value written; its low byte is the token. -/
  | heartbeatWrite (value : BitVec 32)
  /-- EVENTS_WRITE (R95): the 32-bit value written. -/
  | eventsWrite (value : BitVec 32)
  /-- REGISTER_WRITE_IGNORED (R175): a write at a byte offset, of a width in bytes, that changes nothing. -/
  | registerWriteIgnored (offset width : Nat) (value : BitVec 64)
  /-- DEFINE_PARTITION (R12). -/
  | definePartition
  /-- FREEZE_PARTITION (R14). -/
  | freezePartition
  /-- RELEASE_PARTITION (R15). -/
  | releasePartition
  /-- CLEAR_TORN (R19). -/
  | clearTorn
  /-- GET_PARTITIONS (R20). -/
  | getPartitions
  /-- CREATE_CHANNEL (R40). -/
  | createChannel
  /-- DELETE_CHANNEL (R43). -/
  | deleteChannel
  /-- PAUSE_CHANNEL (R41). -/
  | pauseChannel
  /-- RESUME_CHANNEL (R42). -/
  | resumeChannel
  /-- CREATE_CQ (R91). -/
  | createCq
  /-- DELETE_CQ (R92). -/
  | deleteCq
  /-- SET_REFRESH (R116). -/
  | setRefresh
  /-- SET_SCRUB (R122). -/
  | setScrub
  /-- GET_HEALTH (R127). -/
  | getHealth
  /-- CLEAR_ERRORS (R126). -/
  | clearErrors
  /-- SET_MONITOR (R140). -/
  | setMonitor
  /-- SET_LINK_TIMEOUT (R172). -/
  | setLinkTimeout
  /-- SET_DRAIN (R159). -/
  | setDrain
  /-- ENTER_RETENTION (R165). -/
  | enterRetention
  /-- GET_RETENTION_RECORD (R165). -/
  | getRetentionRecord
  /-- CLAIM_RETAINED (R164). -/
  | claimRetained
  /-- DISCARD_RETAINED (R164). -/
  | discardRetained
  /-- UNKNOWN_COMMAND (R135). -/
  | unknownCommand
  /-- SLOT_SCHEDULER_CHOICE (R35). -/
  | slotSchedulerChoice
  /-- PRESENTATION (R52): by the slot with this number. -/
  | presentation (slot : Fin 4)
  /-- READ_BURST (R104): the release point, with what the array yields for each word, lowest first. -/
  | readBurst (findings : List Finding)
  /-- WRITE_BURST (R105). -/
  | writeBurst
  /-- READ_MODIFY_WRITE (R106): the release point, with what the array yields for the word. -/
  | readModifyWrite (finding : Finding)
  /-- REFRESH (R115). -/
  | refresh
  /-- SCRUB_LINE (R121): the release point, with what the array yields for the eight words, lowest first. -/
  | scrubLine (findings : List Finding)
  /-- SELF_REFRESH_ENTRY (R160). -/
  | selfRefreshEntry
  /-- SELF_REFRESH_EXIT (R163). -/
  | selfRefreshExit
  /-- HOST_READ_DATA (R170): a part of an answer carrying good data, for one link tag. -/
  | hostReadData (tag : Fin 16) (bytes : List Byte)
  /-- READ_ERROR_RETURN (R170): an unsuccessful or poisoned answer, for one link tag. -/
  | readErrorReturn (tag : Fin 16)
  /-- LINK_READ_TIMEOUT (R171). -/
  | linkReadTimeout (tag : Fin 16)
  /-- QUARANTINE_END (R171). -/
  | quarantineEnd (tag : Fin 16)
  /-- INTERVAL_EXPIRY (R114). -/
  | intervalExpiry
  /-- SCRUB_TICK (R119). -/
  | scrubTick
  /-- DELAY_TIMER_EXPIRY (R89): of one completion ring. -/
  | delayTimerExpiry (ring : Fin 9)
  /-- PERIOD_TIMER_EXPIRY (R144). -/
  | periodTimerExpiry
  /-- GRACE_TIMER_EXPIRY (R145). -/
  | graceTimerExpiry
  /-- DRAIN_DEADLINE_EXPIRY (R158, R159). -/
  | drainDeadlineExpiry
  /-- COMPLETION_WRITE (R81): into one completion ring. -/
  | completionWrite (ring : Fin 9)
  /-- COMPLETION_DISCARD (R87): of the oldest completion at one place. -/
  | completionDiscard (source : CompletionSource)
  /-- DELETE_CONVERSION (R44): of the oldest fetched descriptor of one channel. -/
  | deleteConversion (channel : Fin 16)
  /-- PWR_WARN_DEASSERTED (R163). -/
  | pwrWarnDeasserted
  /-- MAIN_POWER_LOSS (R162). -/
  | mainPowerLoss
  /-- MAIN_POWER_RETURN (R162). -/
  | mainPowerReturn
  /-- BACKUP_SUPPLY_FAILURE (R162). -/
  | backupSupplyFailure
  deriving DecidableEq, Repr

end Sys2Proof
end

