-- ==== Sys2Proof/WellFormed.lean ====
section
/-! DEFINITION. Which commands are well-formed: operands of the shape that the step they stand for has. A command that is
not well-formed still runs; these checks say what a sender of commands sends. -/

namespace Sys2Proof

/-- A write of the register window that reaches a register that takes it (R175, R176). -/
def writeTaken (offset width : Nat) (value : BitVec 64) : Bool :=
  (width == 8 && (offset == 0x20 || offset == 0x28 || offset == 0x30)) ||
    (width == 4 &&
      ((offset == 0x10 && value.extractLsb' 0 2 != 0) || offset == 0x14 || offset == 0x18 || offset == 0x1C ||
        offset == 0x20 || offset == 0x24 || offset == 0x28 || offset == 0x2C || offset == 0x30 || offset == 0x34))

/-- The command is well-formed. A read burst touches at most the 32 ECC words of its 256-byte
block (R97); a scrub line reads eight (R107); a part of an answer carries at least one byte (R170); a write that is
ignored reaches no register that takes it (R175). -/
def Instr.wellFormed : Instr → Bool
  | .readBurst findings => findings.length ≤ 32
  | .scrubLine findings => findings.length == 8
  | .hostReadData _ bytes => !bytes.isEmpty
  | .registerWriteIgnored offset width value => !writeTaken offset width value
  | .powerOn | .memoryInitialisation _ | .warmStart | .coreLogicPowerDown | .pwrWarnAsserted | .linkDown | .linkUp
  | .linkReset | .messageEnable _ _ | .enable | .quiesce | .functionReset | .adminRingWrite _ _ _ | .notifySqTail _ _
  | .notifyCqHead _ _ | .heartbeatWrite _ | .eventsWrite _ | .definePartition | .freezePartition | .releasePartition
  | .clearTorn | .getPartitions | .createChannel | .deleteChannel | .pauseChannel | .resumeChannel | .createCq
  | .deleteCq | .setRefresh | .setScrub | .getHealth | .clearErrors | .setMonitor | .setLinkTimeout | .setDrain
  | .enterRetention | .getRetentionRecord | .claimRetained | .discardRetained | .unknownCommand
  | .slotSchedulerChoice | .presentation _ | .writeBurst | .readModifyWrite _ | .refresh | .selfRefreshEntry
  | .selfRefreshExit | .readErrorReturn _ | .linkReadTimeout _ | .quarantineEnd _ | .intervalExpiry | .scrubTick
  | .delayTimerExpiry _ | .periodTimerExpiry | .graceTimerExpiry | .drainDeadlineExpiry | .completionWrite _
  | .completionDiscard _ | .deleteConversion _ | .pwrWarnDeasserted | .mainPowerLoss | .mainPowerReturn
  | .backupSupplyFailure => true

end Sys2Proof
end

