-- ==== Sys2Proof/Decode.lean ====
section
/-! DEFINITION. How commands are spelled by words. The rows of spec/opcode_table.json give no bits, so no word spells a
row by the table; a write of the register window spells one by the layouts of R175 and R176. -/

namespace Sys2Proof

/-- The command that a word spells by the table's bits: no row of the table gives bits, so none. -/
def decodeTableWord (_nbits _w : Nat) : Option Instr := none

/-- The command a write of CONTROL spells (R176): the code in bits 0 and 1; a write of 0 has no effect. -/
def decodeControl (offset width : Nat) (value : BitVec 64) : Instr :=
  match (value.extractLsb' 0 2).toNat with
  | 1 => .enable
  | 2 => .quiesce
  | 3 => .functionReset
  | _ => .registerWriteIgnored offset width value

/-- The command a write of NOTIFY spells (R176): index in bits 0 to 15, ring id in bits 16 to 23, ring kind in bit
24. -/
def decodeNotify (value : BitVec 64) : Instr :=
  if value.getLsbD 24 then .notifyCqHead (value.extractLsb' 16 8) (value.extractLsb' 0 16)
  else .notifySqTail (value.extractLsb' 16 8) (value.extractLsb' 0 16)

/-- The command that a write of the register window spells (R166, R175): byte offset, width in bytes, value. A 4-byte
write carries its value in the low 32 bits. A misaligned write of 4 or 8 bytes is ignored: DESIGN CHOICE, log entry
27. -/
def decodeRegisterWrite (offset width : Nat) (value : BitVec 64) : Instr :=
  match width, offset with
  | 8, 0x20 => .adminRingWrite .submissionBase .whole value
  | 8, 0x28 => .adminRingWrite .completionBase .whole value
  | 8, 0x30 => .adminRingWrite .size .whole value
  | 4, 0x10 => decodeControl offset width value
  | 4, 0x14 => decodeNotify value
  | 4, 0x18 => .heartbeatWrite (value.extractLsb' 0 32)
  | 4, 0x1C => .eventsWrite (value.extractLsb' 0 32)
  | 4, 0x20 => .adminRingWrite .submissionBase .low value
  | 4, 0x24 => .adminRingWrite .submissionBase .high value
  | 4, 0x28 => .adminRingWrite .completionBase .low value
  | 4, 0x2C => .adminRingWrite .completionBase .high value
  | 4, 0x30 => .adminRingWrite .size .low value
  | 4, 0x34 => .adminRingWrite .size .high value
  | _, _ => .registerWriteIgnored offset width value

end Sys2Proof
end

