-- ==== Sys2Proof/Machine/State.lean ====
section
/-! DEFINITION. The state of the HV2408 as plain data, block by block as the manual's block overview names them, the
reasons a step can stop, and the state after power-on. Every timer is held in tenths of a microsecond. -/

namespace Sys2Proof.Machine

/-! ### Names the manual gives its states and codes -/

/-- Buffer capacity selected by the strap pins (00_scope.md, R1). -/
inductive Capacity where
  | gib1
  | gib2
  | gib4
  | gib8
  deriving DecidableEq, Repr

/-- Operating states (R148). -/
inductive OpState where
  | init
  | standby
  | active
  | quiescing
  | draining
  | retained
  | memoryFault
  deriving DecidableEq, Repr

/-- Drain phases (R148); `none` outside DRAINING. -/
inductive DrainPhase where
  | none
  | stop
  | flush
  | settle
  deriving DecidableEq, Repr

/-- Memory states (R108). -/
inductive MemState where
  | init
  | ready
  | selfRefresh
  | exiting
  | fault
  deriving DecidableEq, Repr

/-- Power source as STATE reports it (R148). -/
inductive PowerSource where
  | main
  | backup
  deriving DecidableEq, Repr

/-- Every status of the one code space of R179. -/
inductive Status where
  | ok
  | badKind
  | badLength
  | partitionState
  | stale
  | access
  | protect
  | bounds
  | overlap
  | hostReadError
  | mediaError
  | aborted
  | terminated
  | markBroken
  | badCommand
  | badParameter
  | badId
  | alreadyExists
  | notFound
  | inUse
  | noSpace
  | wrongState
  | torn
  | retainedPending
  | notRetained
  deriving DecidableEq, Repr

/-- A completion before its lap flag is added (R70, R80). `channel` is 0 for an admin completion. -/
structure Completion where
  tag       : Word32
  bytesDone : Nat
  result    : Word32
  channel   : Nat
  status    : Status
  head      : Nat
  notify    : Bool
  deriving DecidableEq, Repr

/-- A record read from a ring, with its head after fetch (R23, R129). -/
structure Fetched where
  entry     : Record
  headAfter : Nat
  deriving DecidableEq, Repr

/-! ### Partition Table (R1) -/

/-- Lifecycle states of a partition entry (R2). -/
inductive PartitionState where
  | free
  | opened
  | frozen
  | releasing
  deriving DecidableEq, Repr

/-- Retention class (R1). -/
inductive RetentionClass where
  | discard
  | keep
  deriving DecidableEq, Repr

/-- One entry of the Partition Table (R1). `base` and `length` count units of 4 KiB; bit `n` of `mask` admits channel
id `n + 1`. -/
structure Partition where
  state      : PartitionState
  base       : Nat
  length     : Nat
  mask       : BitVec 16
  cls        : RetentionClass
  generation : BitVec 8
  torn       : Bool
  refs       : Nat
  writeRefs  : Nat
  deriving DecidableEq, Repr

/-- A FREE entry that carries generation `g` (R18). -/
def Partition.freed (g : BitVec 8) : Partition :=
  { state := .free, base := 0, length := 0, mask := 0, cls := .discard, generation := g, torn := false, refs := 0,
    writeRefs := 0 }

/-! ### Channel Table, Ring Fetch Unit and Slot Scheduler (R23, R28, R35) -/

/-- Lifecycle states of a channel (R24). -/
inductive ChannelState where
  | absent
  | running
  | paused
  | halted
  | deleting
  deriving DecidableEq, Repr

/-- Scheduling class (R23). -/
inductive ChannelClass where
  | bulk
  | urgent
  deriving DecidableEq, Repr

/-- The condition of one ring's fetch record (R28, R129). -/
inductive FetchRecord where
  | empty
  | requesting
  | inFlight (count : Nat)
  | orphaned (count : Nat)
  deriving DecidableEq, Repr

/-- One channel context (R23). The fetch in flight stands in `State.fetch`. `flush` is the flush queue of R157, which
exists only while DRAINING. -/
structure Channel where
  state       : ChannelState
  base        : HostAddr
  size        : Nat
  tail        : Nat
  head        : Nat
  queue       : List Fetched
  slot        : Option (Fin 4)
  held        : List Completion
  flush       : List Completion
  cls         : ChannelClass
  weight      : Nat
  stopOnError : Bool
  ring        : Fin 9
  mark        : Word32
  clean       : Bool
  completed   : Word32
  deriving DecidableEq, Repr

/-- An ABSENT context; its other fields carry no meaning (R23). -/
def Channel.none : Channel :=
  { state := .absent, base := 0, size := 0, tail := 0, head := 0, queue := [], slot := Option.none, held := [],
    flush := [], cls := .bulk, weight := 0, stopOnError := false, ring := 0, mark := 0, clean := false,
    completed := 0 }

/-- Pointer and turn credit of one class (R35). The pointer is a channel index. -/
structure Turn where
  pointer : Fin 16
  credit  : Nat
  deriving DecidableEq, Repr

/-- The Slot Scheduler (R35). -/
structure Scheduler where
  urgent : Turn
  bulk   : Turn
  deriving DecidableEq, Repr

/-! ### Execution slots (R47) -/

/-- Slot states (R48). -/
inductive SlotState where
  | idle
  | check
  | run
  | ending
  deriving DecidableEq, Repr

/-- Buffer references the Partition Table has counted for a slot (R47). -/
inductive HeldRefs where
  | none
  | a
  | ab
  deriving DecidableEq, Repr

/-- Where a slot's one port request stands (R47). -/
inductive PortRequest where
  | none
  | waiting
  | inProgress
  deriving DecidableEq, Repr

/-- End cause (R47). -/
inductive EndCause where
  | none
  | complete
  | status (st : Status)
  deriving DecidableEq, Repr

/-- Stop request (R47). -/
inductive StopRequest where
  | none
  | aborted
  | terminated
  | silent
  deriving DecidableEq, Repr

/-- The kinds of port operation a slot asks for (R97). -/
inductive SlotOpKind where
  | read
  | write
  | rmw
  deriving DecidableEq, Repr

/-- One port operation of a slot: the position in the range of its first byte, its absolute buffer address and its
length in bytes (R55, R97). -/
structure SlotOp where
  kind : SlotOpKind
  pos  : Nat
  addr : Nat
  len  : Nat
  deriving DecidableEq, Repr

/-- A piece in hand: its position in the range and its data (R47, R54). -/
structure Piece where
  pos  : Nat
  data : List Byte
  deriving DecidableEq, Repr

/-- One execution slot (R47). `ops` lists the port operations still to be made of the piece being carried out; `port`
says where the request for the first of them stands. -/
structure Slot where
  state     : SlotState
  entry     : Record
  chan      : Fin 16
  headAfter : Nat
  cls       : ChannelClass
  refs      : HeldRefs
  bytesDone : Nat
  nextPiece : Nat
  inHand    : List Piece
  reads     : Nat
  ops       : List SlotOp
  port      : PortRequest
  crc       : Word32
  cause     : EndCause
  stop      : StopRequest
  deriving DecidableEq, Repr

/-- An IDLE slot; its other fields carry no meaning (R47). -/
def Slot.none : Slot :=
  { state := .idle, entry := 0, chan := 0, headAfter := 0, cls := .bulk, refs := .none, bytesDone := 0, nextPiece := 0,
    inHand := [], reads := 0, ops := [], port := .none, crc := 0, cause := .none, stop := .none }

/-! ### Completion Writer (R76) -/

/-- Lifecycle states of a completion ring (R77). -/
inductive RingState where
  | absent
  | active
  | faulted
  deriving DecidableEq, Repr

/-- One completion ring context (R76). `delay` is in µs; `timer` is the time left in tenths of a µs; `service` is a
channel index. -/
structure Ring where
  state       : RingState
  base        : HostAddr
  size        : Nat
  write       : Nat
  unconsumed  : Nat
  lap         : Bool
  vector      : Nat
  threshold   : Nat
  delay       : Nat
  unsignalled : Nat
  timer       : Option Nat
  bound       : Nat
  service     : Fin 16
  deriving DecidableEq, Repr

/-- An ABSENT ring; its other fields carry no meaning (R76). -/
def Ring.none : Ring :=
  { state := .absent, base := 0, size := 0, write := 0, unconsumed := 0, lap := false, vector := 0, threshold := 0,
    delay := 0, unsignalled := 0, timer := Option.none, bound := 0, service := 15 }

/-! ### Administrative ring and Admin Processor (R128, R129) -/

/-- The values held in the ADMIN_RING register (R128). -/
structure AdminRingRegister where
  submissionBase : HostAddr
  completionBase : HostAddr
  size           : BitVec 16
  deriving DecidableEq, Repr

/-- Admin Processor states (R129). -/
inductive ProcessorState where
  | idle
  | executing
  | halted
  deriving DecidableEq, Repr

/-- What the command in execution still waits for (R136): nothing but the posting of its completion, the references of
a partition, or the emptying of a channel. `stopped` marks a command that a drain has stopped (R137). -/
inductive AdminWait where
  | none
  | references (p : Fin 16)
  | channelEmpty (c : Fin 16)
  | stopped
  deriving DecidableEq, Repr

/-- The command in execution (R129). -/
structure AdminCommand where
  entry     : Record
  headAfter : Nat
  wait      : AdminWait
  deriving DecidableEq, Repr

/-- The admin submission ring's context and the Admin Processor (R129). The fetch record stands in
`State.adminFetch`. `handover` is the completion handed to the Completion Writer and not yet written (R83);
`haltAfter` records a failed fetch taken while EXECUTING (R133). -/
structure Admin where
  base      : HostAddr
  size      : Nat
  tail      : Nat
  head      : Nat
  queue     : List Fetched
  processor : ProcessorState
  command   : Option AdminCommand
  handover  : Option Completion
  haltAfter : Bool
  deriving DecidableEq, Repr

/-- No admin ring (R129, power-on). -/
def Admin.none : Admin :=
  { base := 0, size := 0, tail := 0, head := 0, queue := [], processor := .idle, command := Option.none,
    handover := Option.none, haltAfter := false }

/-! ### Port Arbiter (R99), Refresh Engine (R112), Scrub Unit (R118), Health Store (R123) -/

/-- The current holder of the memory port (R99); `arrayStart` is memory initialisation, which occupies the port
(R109). -/
inductive PortHolder where
  | none
  | slot (k : Fin 4)
  | refreshEngine
  | scrubUnit
  | selfRefreshEntry
  | selfRefreshExit
  | arrayStart
  deriving DecidableEq, Repr

/-- The Port Arbiter (R99). A slot's standing request is in its slot record, the Refresh Engine's stands while the debt
is 1 or more and the Scrub Unit's while a scrub request is pending. `entryRequest` is the State Controller's. -/
structure Port where
  holder        : PortHolder
  urgentPointer : Fin 4
  bulkPointer   : Fin 4
  entryRequest  : Bool
  deriving DecidableEq, Repr

/-- The Refresh Engine (R112). Intervals and the timer are in tenths of a µs. -/
structure RefreshEngine where
  interval        : Nat
  pendingInterval : Option Nat
  timer           : Option Nat
  debt            : Nat
  limit           : Nat
  pendingLimit    : Option Nat
  deriving DecidableEq, Repr

/-- The Scrub Unit (R118). `period` is in µs, 0 for off. -/
structure ScrubUnit where
  period  : Nat
  timer   : Option Nat
  pointer : Nat
  request : Bool
  deriving DecidableEq, Repr

/-- The Health Store (R123, R124). `lines` is the error address list, oldest first. -/
structure HealthStore where
  correctable   : Nat
  uncorrectable : Nat
  overrun       : Nat
  deferral      : Nat
  overflow      : Nat
  lines         : List Nat
  deriving DecidableEq, Repr

/-! ### Host Monitor (R138) -/

/-- Monitor states (R139). -/
inductive MonitorState where
  | disarmed
  | armed
  | alert
  | tripped
  deriving DecidableEq, Repr

/-- Last result of a HEARTBEAT write (R147). -/
inductive LastResult where
  | none
  | accepted
  | early
  | wrong
  | ignored
  deriving DecidableEq, Repr

/-- The Host Monitor (R138). `periodCode` is `none` for off; `grace` is in ms; `elapsed` is the period timer, the time
since it last started; `graceLeft` is the grace timer. -/
structure Monitor where
  periodCode : Option Nat
  window     : Nat
  grace      : Nat
  state      : MonitorState
  beat       : BitVec 8
  elapsed    : Option Nat
  graceLeft  : Option Nat
  last       : LastResult
  deriving DecidableEq, Repr

/-! ### Event Unit (R94) -/

/-- Monitor alert detail (R94). -/
inductive AlertDetail where
  | none
  | early
  | late
  deriving DecidableEq, Repr

/-- The EVENTS register: the nine causes in the bit order of R176, and the monitor alert detail. -/
structure Events where
  causes : BitVec 9
  detail : AlertDetail
  deriving DecidableEq, Repr

/-! ### State Controller (R149) and the retention record (R161) -/

/-- Drain reasons (R155). -/
inductive DrainReason where
  | monitorTrip
  | linkDown
  | linkReset
  | powerWarn
  | hostRequest
  deriving DecidableEq, Repr

/-- Flush outcomes (R161). -/
inductive FlushOutcome where
  | notAttempted
  | complete
  | deadline
  deriving DecidableEq, Repr

/-- One entry of the record's channel section (R161). -/
structure ChannelEntry where
  existed    : Bool
  head       : Nat
  mark       : Word32
  clean      : Bool
  terminated : Nat
  slotDesc   : Option (Word32 × Nat)
  deriving DecidableEq, Repr

/-- The entry of a channel that did not exist: zeros and no slot descriptor (R161). -/
def ChannelEntry.none : ChannelEntry :=
  { existed := false, head := 0, mark := 0, clean := false, terminated := 0, slotDesc := Option.none }

/-- The retention record, and the working record of a drain (R161). -/
structure RetentionRecord where
  valid      : Bool
  sequence   : Word32
  reason     : DrainReason
  timestamp  : Word32
  outcome    : FlushOutcome
  unflushed  : Nat
  adminTag   : Option Word32
  channels   : Vector ChannelEntry 16
  partitions : Vector Partition 16
  overrun    : Nat
  lines      : List Nat
  claimed    : Bool
  deriving DecidableEq, Repr

/-- The invalid record after power-on, with sequence number 0 (R149). DESIGN CHOICE (log entry 17): the spec gives no value
to the other fields of a record that is not valid, nor to a working record outside a drain; the model names these. -/
def RetentionRecord.invalid : RetentionRecord :=
  { valid := false, sequence := 0, reason := .monitorTrip, timestamp := 0, outcome := .notAttempted, unflushed := 0,
    adminTag := none, channels := Vector.replicate 16 ChannelEntry.none,
    partitions := Vector.replicate 16 (Partition.freed 0), overrun := 0, lines := [], claimed := false }

/-- The State Controller (R148, R149). `deadline` is the drain deadline timer; `expired` records its expiry in STOP
(R159); `adminDone` is the drain's admin completion (R156); `resetInExit` records a link reset taken during a
self-refresh exit (R174). `deadlineMs` is the drain deadline setting. -/
structure Controller where
  op              : OpState
  phase           : DrainPhase
  retainedPending : Bool
  deadlineMs      : Nat
  deadline        : Option Nat
  expired         : Bool
  adminDone       : Option Completion
  resetInExit     : Bool
  record          : RetentionRecord
  working         : RetentionRecord
  deriving DecidableEq, Repr

/-! ### Link Interface Unit (R168) -/

/-- States of a link tag (R168). -/
inductive TagState where
  | free
  | waiting
  | quarantined
  deriving DecidableEq, Repr

/-- Holder of a link tag (R168). -/
inductive TagHolder where
  | none
  | slot (k : Fin 4)
  | admin
  | channel (c : Fin 16)
  deriving DecidableEq, Repr

/-- One link tag (R168). `pos` is the position in the range of a slot's piece; `orphan` marks a slot read that its slot
has orphaned (R71); `left` is the time left to the deadline; `timeoutMs` is the timeout used. -/
structure Tag where
  state     : TagState
  holder    : TagHolder
  addr      : HostAddr
  len       : Nat
  pos       : Nat
  data      : List Byte
  orphan    : Bool
  left      : Nat
  timeoutMs : Nat
  deriving DecidableEq, Repr

/-- A FREE tag (R168). -/
def Tag.none : Tag :=
  { state := .free, holder := .none, addr := 0, len := 0, pos := 0, data := [], orphan := false, left := 0,
    timeoutMs := 0 }

/-- One item handed to the host through the outbound queue (R167): a posted write, a message with its vector number, or
a host-memory read with its link tag. -/
inductive Outbound where
  | write (addr : HostAddr) (bytes : List Byte)
  | message (vector : Nat)
  | read (tag : Fin 16) (addr : HostAddr) (len : Nat)
  deriving DecidableEq, Repr

/-- The Link Interface Unit (R167, R168). `delivered` is the model's own record of what the link has carried to the
host, oldest first. -/
structure Link where
  up             : Bool
  tags           : Vector Tag 16
  slotRequests   : Vector Bool 4
  slotPointer    : Fin 4
  channelPointer : Fin 16
  timeoutMs      : Nat
  outbound       : List Outbound
  messageEnable  : Bool
  vectors        : VectorsGranted
  delivered      : List Outbound
  deriving DecidableEq, Repr

/-- The Link Interface Unit after power-on (R167, R168). -/
def Link.fresh : Link :=
  { up := false, tags := Vector.replicate 16 Tag.none, slotRequests := Vector.replicate 4 false, slotPointer := 3,
    channelPointer := 15, timeoutMs := 10, outbound := [], messageEnable := false, vectors := .one, delivered := [] }

/-! ### Power and time -/

/-- Supplies and the PWR_WARN pin (R148, R155, R162): whether core logic and the always-on domain are powered. -/
structure Power where
  core     : Bool
  alwaysOn : Bool
  source   : PowerSource
  pwrWarn  : Bool
  deriving DecidableEq, Repr

/-- The 1 µs timebase (00_scope.md, Quantities) and the tenths of a µs since its last count. -/
structure Timebase where
  micros : Word32
  tenths : Nat
  deriving DecidableEq, Repr

/-! ### The whole state -/

/-- The state of the controller, with the queue of commands that wait, first in first out. `mem` is buffer memory:
strictly rising addresses, no zero byte listed, an unlisted address reads 0. `freeCount` is the model's own: how many
free choices have been made. -/
structure State where
  capacity   : Capacity
  power      : Power
  time       : Timebase
  ctl        : Controller
  partitions : Vector Partition 16
  channels   : Vector Channel 16
  fetch      : Vector FetchRecord 16
  sched      : Scheduler
  slots      : Vector Slot 4
  rings      : Vector Ring 9
  adminRing  : AdminRingRegister
  admin      : Admin
  adminFetch : FetchRecord
  port       : Port
  memState   : MemState
  mem        : List Host.Cell
  refresh    : RefreshEngine
  scrub      : ScrubUnit
  health     : HealthStore
  monitor    : Monitor
  events     : Events
  link       : Link
  freeCount  : Nat
  pending    : List Instr
  deriving DecidableEq, Repr

/-- A stop that the manual's own address map asks for. -/
inductive Fault where
  /-- Raised at the release point of a burst, a read-modify-write or a scrub line whose bytes lie beyond the capacity of
  buffer memory: no such address exists (R1, R97). SAFE: no state that the partition laws of R5, R12 and R13 admit
  reaches it. -/
  | beyondCapacity
  deriving DecidableEq, Repr

/-- A command without a meaning. -/
inductive Refusal where
  /-- Raised by an arm of `exec` whose command has no meaning yet, with the mnemonic of its row. SAFE: nothing runs. No
  arm of this model raises it. -/
  | notModelled (mnemonic : String)
  deriving DecidableEq, Repr

/-- The controller right after power-on (R4, R25, R49, R78, R94, R99, R108, R112, R118, R123, R128, R129, R138, R149,
R168). The capacity strap, the pin level and the power source are values of the board: log entry 4. -/
def State.reset : State :=
  { capacity := .gib1
    power := { core := true, alwaysOn := true, source := .main, pwrWarn := false }
    time := { micros := 0, tenths := 0 }
    ctl :=
      { op := .init, phase := .none, retainedPending := false, deadlineMs := 50, deadline := none, expired := false,
        adminDone := none, resetInExit := false, record := .invalid, working := .invalid }
    partitions := Vector.replicate 16 (Partition.freed 0)
    channels := Vector.replicate 16 Channel.none
    fetch := Vector.replicate 16 .empty
    sched := { urgent := { pointer := 15, credit := 0 }, bulk := { pointer := 15, credit := 0 } }
    slots := Vector.replicate 4 Slot.none
    rings := Vector.replicate 9 Ring.none
    adminRing := { submissionBase := 0, completionBase := 0, size := 0 }
    admin := .none
    adminFetch := .empty
    port := { holder := .arrayStart, urgentPointer := 3, bulkPointer := 3, entryRequest := false }
    memState := .init
    mem := []
    refresh :=
      { interval := 78, pendingInterval := none, timer := none, debt := 0, limit := 4, pendingLimit := none }
    scrub := { period := 0, timer := none, pointer := 0, request := false }
    health := { correctable := 0, uncorrectable := 0, overrun := 0, deferral := 0, overflow := 0, lines := [] }
    monitor :=
      { periodCode := none, window := 0, grace := 100, state := .disarmed, beat := 0, elapsed := none,
        graceLeft := none, last := .none }
    events := { causes := 0, detail := .none }
    link := .fresh
    freeCount := 0
    pending := [] }

end Sys2Proof.Machine
end

