-- ==== Sys2Proof/Machine/Ops.lean ====
section
/-! DEFINITION. The named operations over the state: each block's parts read and replaced, buffer memory, byte order,
round-robin search, the outbound queue and the passing of time. -/

namespace Sys2Proof.Machine

/-- The outcome type of every meaning. -/
abbrev Out := Host.Outcome State Fault Refusal

/-- The vector whose entry `i` is `f i`. -/
def tabulate {α : Type} (n : Nat) (f : Fin n → α) : Vector α n :=
  ⟨((List.finRange n).map f).toArray, by simp⟩

/-! ### Parts of the state -/

/-- Entry `i` of the Partition Table. -/
def State.part (s : State) (i : Fin 16) : Partition := s.partitions.get i
/-- Replaces entry `i` of the Partition Table. -/
def State.setPart (s : State) (i : Fin 16) (p : Partition) : State := { s with partitions := s.partitions.set i p }

/-- Channel context `c`, the channel of id `c + 1`. -/
def State.chan (s : State) (c : Fin 16) : Channel := s.channels.get c
/-- Replaces channel context `c`. -/
def State.setChan (s : State) (c : Fin 16) (x : Channel) : State := { s with channels := s.channels.set c x }

/-- The fetch record of channel ring `c`. -/
def State.fetchOf (s : State) (c : Fin 16) : FetchRecord := s.fetch.get c
/-- Replaces the fetch record of channel ring `c`. -/
def State.setFetch (s : State) (c : Fin 16) (f : FetchRecord) : State := { s with fetch := s.fetch.set c f }

/-- Execution slot `k`. -/
def State.slot (s : State) (k : Fin 4) : Slot := s.slots.get k
/-- Replaces execution slot `k`. -/
def State.setSlot (s : State) (k : Fin 4) (x : Slot) : State := { s with slots := s.slots.set k x }

/-- Completion ring `r`. -/
def State.ring (s : State) (r : Fin 9) : Ring := s.rings.get r
/-- Replaces completion ring `r`. -/
def State.setRing (s : State) (r : Fin 9) (x : Ring) : State := { s with rings := s.rings.set r x }

/-- Link tag `t`. -/
def State.tag (s : State) (t : Fin 16) : Tag := s.link.tags.get t
/-- Replaces link tag `t`. -/
def State.setTag (s : State) (t : Fin 16) (x : Tag) : State :=
  { s with link := { s.link with tags := s.link.tags.set t x } }

/-- Every channel index, in ascending channel id. -/
def allChannels : List (Fin 16) := List.finRange 16
/-- Every slot number, ascending. -/
def allSlots : List (Fin 4) := List.finRange 4
/-- Every completion ring id, ascending. -/
def allRings : List (Fin 9) := List.finRange 9
/-- Every link tag number, ascending. -/
def allTags : List (Fin 16) := List.finRange 16

/-- The controller is in ACTIVE or QUIESCING, the two states in which work is carried out (R148). -/
def State.atWork (s : State) : Bool := s.ctl.op == .active || s.ctl.op == .quiescing

/-- An access of the host reaches the controller: core logic is powered and the link is UP (R166, R173). -/
def State.reached (s : State) : Bool := s.power.core && s.link.up

/-- Every execution slot is IDLE (R157, R160). -/
def State.slotsIdle (s : State) : Bool := allSlots.all fun k => (s.slot k).state == .idle

/-! ### Capacity (R1) -/

/-- Capacity of buffer memory in units of 4 KiB (R1). -/
def Capacity.units : Capacity → Nat
  | .gib1 => 262144
  | .gib2 => 524288
  | .gib4 => 1048576
  | .gib8 => 2097152

/-- Capacity of buffer memory in bytes. -/
def Capacity.bytes (c : Capacity) : Nat := c.units * 4096

/-! ### Byte order (11_layouts.md: every multi-byte field is little-endian) -/

/-- The low `n` bytes of `v`, least significant first. -/
def leBytes : Nat → Nat → List Byte
  | 0, _ => []
  | n + 1, v => BitVec.ofNat 8 v :: leBytes n (v / 256)

/-- The number that bytes spell, least significant first. -/
def leValue : List Byte → Nat
  | [] => 0
  | b :: r => b.toNat + 256 * leValue r

/-- The ring records that the bytes of one fetch hold, 64 bytes each, lowest ring index first. -/
def splitRecords : Nat → List Byte → List Record
  | 0, _ => []
  | n + 1, bytes => BitVec.ofNat 512 (leValue (bytes.take 64)) :: splitRecords n (bytes.drop 64)

/-! ### Buffer memory -/

/-- What an address reads as that nothing has written: 0. DESIGN CHOICE (log entry 5): the array's contents after
power-on are unknown (R103), and a read may deliver other data through `Finding.data`. -/
def Memory.unlisted : Byte := 0

/-- The byte at an absolute buffer address. -/
def Memory.read : List Host.Cell → Nat → Byte
  | [], _ => Memory.unlisted
  | (k, b) :: r, a => if k = a then b else Memory.read r a

/-- Memory with one byte written, in canonical form. -/
def Memory.write : List Host.Cell → Nat → Byte → List Host.Cell
  | [], a, b => if b = Memory.unlisted then [] else [(a, b)]
  | (k, c) :: r, a, b =>
    if a < k then (if b = Memory.unlisted then (k, c) :: r else (a, b) :: (k, c) :: r)
    else if a = k then (if b = Memory.unlisted then r else (a, b) :: r)
    else (k, c) :: Memory.write r a b

/-- Memory with consecutive bytes written from an address. -/
def Memory.writeBytes : List Host.Cell → Nat → List Byte → List Host.Cell
  | m, _, [] => m
  | m, a, b :: r => Memory.writeBytes (Memory.write m a b) (a + 1) r

/-- `n` consecutive bytes from an address. -/
def Memory.readBytes (m : List Host.Cell) : Nat → Nat → List Byte
  | _, 0 => []
  | a, n + 1 => Memory.read m a :: Memory.readBytes m (a + 1) n

/-- No address of the list is at or below `a`, and the list is canonical from there. -/
def Memory.risingFrom : Option Nat → List Host.Cell → Bool
  | _, [] => true
  | low, (k, b) :: r => (low.all (· < k)) && (b != Memory.unlisted) && Memory.risingFrom (some k) r

/-- The canonical form: addresses strictly rising, no entry equal to what an unlisted address reads as. -/
def Memory.wf (m : List Host.Cell) : Bool := Memory.risingFrom none m

/-! ### Round-robin search (R35, R82, R101, R169) -/

/-- Every index once, ascending from the one after `p` and wrapping; `p` itself comes last. -/
def roundRobin {n : Nat} [NeZero n] (p : Fin n) : List (Fin n) :=
  (List.range n).map fun i => Fin.ofNat n (p.val + i + 1)

/-- The first index after `p`, wrapping, that satisfies `f`; `p` itself is searched last. -/
def searchAfter {n : Nat} [NeZero n] (p : Fin n) (f : Fin n → Bool) : Option (Fin n) := (roundRobin p).find? f

/-! ### Outbound queue (R167) -/

/-- Hands one write or message to the LIU (R167). It is discarded while the link is DOWN, and a message is discarded
while the message enable is clear; nothing tells the block that handed it over. -/
def State.handOut (s : State) (o : Outbound) : State :=
  match o with
  | .message _ =>
    if s.link.up && s.link.messageEnable then { s with link := { s.link with outbound := s.link.outbound ++ [o] } }
    else s
  | _ => if s.link.up then { s with link := { s.link with outbound := s.link.outbound ++ [o] } } else s

/-- The number of vectors granted (R167). -/
def grantedCount : VectorsGranted → Nat
  | .one => 1
  | .two => 2
  | .four => 4
  | .eight => 8
  | .sixteen => 16

/-- One outbound item as it leaves the controller: a message carries its vector modulo the number granted, and is not
sent while the message enable is clear (R167). -/
def Link.carried (l : Link) : Outbound → List Outbound
  | .message v => if l.messageEnable then [.message (v % grantedCount l.vectors)] else []
  | o => [o]

/-- The link carries everything that waits in the outbound queue to the host, in order (R167). -/
def Link.sendAll (l : Link) : Link :=
  if l.up then { l with outbound := [], delivered := l.delivered ++ l.outbound.flatMap l.carried } else l

/-! ### Time -/

/-- The timebase after `n` tenths of a µs; its count of µs wraps at 2^32 (00_scope.md, Quantities). -/
def Timebase.after (t : Timebase) (n : Nat) : Timebase :=
  { micros := t.micros + BitVec.ofNat 32 ((t.tenths + n) / Config.tenthsPerMicro)
    tenths := (t.tenths + n) % Config.tenthsPerMicro }

/-- A timer that counts down, after `n` tenths of a µs; one that has run out keeps 0 until its expiry is taken. -/
def countDown (n : Nat) : Option Nat → Option Nat := Option.map (· - n)

/-- `n` tenths of a µs pass: the timebase counts and every running timer runs (R76, R112, R118, R138, R149, R168). -/
def State.elapse (s : State) (n : Nat) : State :=
  { s with
    time := s.time.after n
    ctl := { s.ctl with deadline := countDown n s.ctl.deadline }
    rings := tabulate 9 fun r => { s.ring r with timer := countDown n (s.ring r).timer }
    refresh := { s.refresh with timer := countDown n s.refresh.timer }
    scrub := { s.scrub with timer := countDown n s.scrub.timer }
    monitor :=
      { s.monitor with
        elapsed := s.monitor.elapsed.map (· + n), graceLeft := countDown n s.monitor.graceLeft }
    link := { s.link with tags := tabulate 16 fun t => { s.tag t with left := (s.tag t).left - n } } }

/-- What an empty queue of commands does: one µs of the timebase passes, and the link carries what waits in the outbound
queue. While core logic is powered down nothing runs. DESIGN CHOICE, log entry 6. -/
def State.idleTick (s : State) : State :=
  if s.power.core then
    let t := s.elapse Config.tenthsPerMicro
    { t with link := t.link.sendAll }
  else s

end Sys2Proof.Machine
end

