-- ==== Sys2Proof/Machine/Flags.lean ====
section
/-! DEFINITION. The EVENTS register: causes raised and cleared, the monitor alert detail, and vector 0 (R94 to R96). -/

namespace Sys2Proof.Machine

/-- The nine causes of EVENTS (R94). -/
inductive Cause where
  | monitorAlert
  | cqFault
  | fetchError
  | badNotify
  | errorListAdded
  | refreshOverrun
  | retentionEntered
  | enableRefused
  | adminFault
  deriving DecidableEq, Repr

/-- The bit of a cause in EVENTS (R176). -/
def Cause.bit : Cause → Nat
  | .monitorAlert => 0
  | .cqFault => 1
  | .fetchError => 2
  | .badNotify => 3
  | .errorListAdded => 4
  | .refreshOverrun => 5
  | .retentionEntered => 6
  | .enableRefused => 7
  | .adminFault => 8

/-- The cause is set in EVENTS. -/
def Events.has (e : Events) (c : Cause) : Bool := e.causes.getLsbD c.bit

/-- EVENTS with one cause set. -/
def Events.set (e : Events) (c : Cause) : Events := { e with causes := e.causes ||| BitVec.twoPow 9 c.bit }

/-- A block raises a cause (R94, R96): a clear cause becomes set and vector 0 is sent; a set cause stays set and nothing
is sent. -/
def State.raise (s : State) (c : Cause) : State :=
  if s.events.has c then s
  else { s with events := s.events.set c }.handOut (.message 0)

/-- The Host Monitor raises MONITOR_ALERT; the detail takes the alert's cause each time (R94). -/
def State.raiseAlert (s : State) (d : AlertDetail) : State :=
  let t := s.raise .monitorAlert
  { t with events := { t.events with detail := d } }

/-- EVENTS after a write (R95): each cause with a one is cleared, and clearing MONITOR_ALERT sets the detail to NONE. -/
def Events.cleared (e : Events) (value : BitVec 32) : Events :=
  { causes := e.causes &&& ~~~(value.setWidth 9)
    detail := if value.getLsbD Cause.monitorAlert.bit then .none else e.detail }

end Sys2Proof.Machine
end

