-- ==== Sys2Proof/Machine/Operands.lean ====
section
/-! DEFINITION. Layouts: the fields of descriptors (R177) and administrative commands (R178), the status codes and the
completion entry (R179), the records the GET commands write (R180), and the fields of the registers (R175, R176). -/

namespace Sys2Proof.Machine

/-! ### Fields of a 64-byte record -/

/-- Byte `n` of a ring entry. -/
def byteAt (r : Record) (n : Nat) : BitVec 8 := r.extractLsb' (8 * n) 8
/-- The 2-byte field at byte `n` of a ring entry. -/
def halfAt (r : Record) (n : Nat) : BitVec 16 := r.extractLsb' (8 * n) 16
/-- The 4-byte field at byte `n` of a ring entry. -/
def wordAt (r : Record) (n : Nat) : BitVec 32 := r.extractLsb' (8 * n) 32
/-- The 8-byte field at byte `n` of a ring entry. -/
def longAt (r : Record) (n : Nat) : BitVec 64 := r.extractLsb' (8 * n) 64

/-- The tag of a descriptor or of an administrative command: bytes 4 to 7 of either (R177, R178). -/
def recordTag (r : Record) : Word32 := wordAt r 4

/-! ### Descriptors (R177) -/

/-- The six descriptor kinds (R50). -/
inductive Kind where
  | writeIn
  | readOut
  | copy
  | fill
  | checksum
  | mark
  deriving DecidableEq, Repr

/-- The kind of a descriptor; `none` for an undefined code (R177). -/
def descKind (r : Record) : Option Kind :=
  match (byteAt r 0).toNat with
  | 1 => some .writeIn
  | 2 => some .readOut
  | 3 => some .copy
  | 4 => some .fill
  | 5 => some .checksum
  | 6 => some .mark
  | _ => none

/-- The NOTIFY flag (R177). -/
def descNotify (r : Record) : Bool := (byteAt r 1).getLsbD 0
/-- The length in bytes (R177). -/
def descLength (r : Record) : Nat := (wordAt r 8).toNat
/-- The host address (R177). -/
def descHost (r : Record) : HostAddr := longAt r 32
/-- The 64-bit pattern of a FILL (R50, R177). -/
def descPattern (r : Record) : BitVec 64 := longAt r 40
/-- The mark value of a MARK (R177). -/
def descMark (r : Record) : Word32 := wordAt r 40

/-- A buffer reference (R50, R177). -/
structure BufferRef where
  partition  : BitVec 8
  generation : BitVec 8
  offset     : Nat
  deriving DecidableEq, Repr

/-- The buffer reference held in an 8-byte field (R177). -/
def bufferRef (v : BitVec 64) : BufferRef :=
  { partition := v.extractLsb' 48 8, generation := v.extractLsb' 40 8, offset := (v.extractLsb' 0 40).toNat }

/-- Buffer reference A (R177). -/
def refA (r : Record) : BufferRef := bufferRef (longAt r 16)
/-- Buffer reference B (R177). -/
def refB (r : Record) : BufferRef := bufferRef (longAt r 24)

/-- Reference A is of write-kind use (R50). -/
def Kind.writes : Kind → Bool
  | .writeIn | .copy | .fill => true
  | .readOut | .checksum | .mark => false

/-- The partition entry an id names, if it is 0 to 15 (R5, R11). -/
def partitionIndex (id : BitVec 8) : Option (Fin 16) := if h : id.toNat < 16 then some ⟨id.toNat, h⟩ else none

/-- The channel an id names, if it is 1 to 16 (R27, R40). -/
def channelIndex (id : BitVec 8) : Option (Fin 16) :=
  if h : 1 ≤ id.toNat ∧ id.toNat ≤ 16 then some ⟨id.toNat - 1, by omega⟩ else none

/-- The completion ring an id names, if it is 0 to 8 (R85). -/
def ringIndex (id : BitVec 8) : Option (Fin 9) := if h : id.toNat < 9 then some ⟨id.toNat, h⟩ else none

/-- The I/O completion ring an id names, if it is 1 to 8 (R40, R91, R92). -/
def ioRingIndex (id : BitVec 8) : Option (Fin 9) :=
  if h : 1 ≤ id.toNat ∧ id.toNat < 9 then some ⟨id.toNat, h.2⟩ else none

/-- A power of two from `lo` to `hi` (R40, R91, R152). -/
def isRingSize (lo hi n : Nat) : Bool :=
  lo ≤ n && n ≤ hi && [8, 16, 32, 64, 128, 256, 512, 1024, 2048, 4096].contains n

/-- A multiple of 64 (R20, R40, R91, R127, R152, R165). -/
def aligned64 (a : HostAddr) : Bool := a.extractLsb' 0 6 == 0#6

/-! ### Administrative commands (R178) -/

/-- The command code. -/
def commandCode (r : Record) : Nat := (byteAt r 0).toNat

/-- The code names one of the commands of R178. -/
def isKnownCode (n : Nat) : Bool := 1 ≤ n && n ≤ 22

/-! ### Status codes and the completion entry (R179) -/

/-- The code of a status (R179). -/
def Status.code : Status → Nat
  | .ok => 0
  | .badKind => 1
  | .badLength => 2
  | .partitionState => 3
  | .stale => 4
  | .access => 5
  | .protect => 6
  | .bounds => 7
  | .overlap => 8
  | .hostReadError => 9
  | .mediaError => 10
  | .aborted => 11
  | .terminated => 12
  | .markBroken => 13
  | .badCommand => 32
  | .badParameter => 33
  | .badId => 34
  | .alreadyExists => 35
  | .notFound => 36
  | .inUse => 37
  | .noSpace => 38
  | .wrongState => 39
  | .torn => 40
  | .retainedPending => 41
  | .notRetained => 42

/-- The last 4-byte field of a completion entry: head, lap flag, status and channel id (R179). -/
def entryWord (c : Completion) (lap : Bool) : Nat :=
  c.head % 4096 + (if lap then 2 ^ 15 else 0) + 2 ^ 16 * c.status.code + 2 ^ 24 * (c.channel % 256)

/-- The 16 bytes of a completion entry (R80, R179). -/
def entryBytes (c : Completion) (lap : Bool) : List Byte :=
  leBytes 4 c.tag.toNat ++ leBytes 4 c.bytesDone ++ leBytes 4 c.result.toNat ++ leBytes 4 (entryWord c lap)

/-! ### Records of the GET commands (R180) -/

/-- The code of a partition state (R180). -/
def PartitionState.code : PartitionState → Nat
  | .free => 0
  | .opened => 1
  | .frozen => 2
  | .releasing => 3

/-- The code of a retention class (R178, R180). -/
def RetentionClass.code : RetentionClass → Nat
  | .discard => 0
  | .keep => 1

/-- The 16 bytes of a partition entry, with its counts or, in a retention record, zeros in their place (R180). -/
def partitionBytes (p : Partition) (counts : Bool) : List Byte :=
  leBytes 1 p.state.code ++ leBytes 1 p.cls.code ++ leBytes 1 p.generation.toNat ++ leBytes 1 p.torn.toNat ++
    leBytes 4 p.base ++ leBytes 4 p.length ++ leBytes 2 p.mask.toNat ++
    (if counts then leBytes 1 p.refs ++ leBytes 1 p.writeRefs else [0, 0])

/-- The 256 bytes GET_PARTITIONS writes (R20, R180). -/
def partitionsBytes (s : State) : List Byte := allChannels.flatMap fun i => partitionBytes (s.part i) true

/-- Eight line addresses of 8 bytes; entries beyond the list read 0 (R127, R180). -/
def lineBytes (lines : List Nat) : List Byte :=
  (List.range 8).flatMap fun i => leBytes 8 (lines.getD i 0)

/-- The 128 bytes GET_HEALTH writes (R127, R180). -/
def healthBytes (s : State) : List Byte :=
  leBytes 4 s.health.correctable ++ leBytes 4 s.health.uncorrectable ++ leBytes 2 s.health.overrun ++
    leBytes 2 s.health.deferral ++ leBytes 1 s.health.overflow ++ leBytes 1 s.health.lines.length ++
    leBytes 1 s.refresh.limit ++ leBytes 1 (s.refresh.pendingLimit.getD 255) ++ leBytes 2 s.refresh.interval ++
    leBytes 1 s.refresh.debt ++ leBytes 1 0 ++ leBytes 4 s.scrub.period ++ leBytes 8 s.scrub.pointer ++
    lineBytes s.health.lines ++ leBytes 32 0

/-- The code of a drain reason (R180). -/
def DrainReason.code : DrainReason → Nat
  | .monitorTrip => 1
  | .linkDown => 2
  | .linkReset => 3
  | .powerWarn => 4
  | .hostRequest => 5

/-- The code of a flush outcome (R180). -/
def FlushOutcome.code : FlushOutcome → Nat
  | .notAttempted => 0
  | .complete => 1
  | .deadline => 2

/-- The 16 bytes of a channel entry (R180). -/
def channelEntryBytes (e : ChannelEntry) : List Byte :=
  leBytes 1 (e.existed.toNat + 2 * e.clean.toNat + 4 * e.slotDesc.isSome.toNat) ++ leBytes 1 e.terminated ++
    leBytes 2 e.head ++ leBytes 4 e.mark.toNat ++
    (match e.slotDesc with
      | some (tag, done) => leBytes 4 tag.toNat ++ leBytes 4 done
      | none => leBytes 8 0)

/-- The 640 bytes GET_RETENTION_RECORD writes (R165, R180). -/
def retentionBytes (r : RetentionRecord) : List Byte :=
  leBytes 4 r.sequence.toNat ++
    leBytes 1 (r.valid.toNat + 2 * r.claimed.toNat + 4 * r.adminTag.isSome.toNat) ++
    leBytes 1 r.reason.code ++ leBytes 1 r.outcome.code ++ leBytes 1 0 ++ leBytes 4 r.timestamp.toNat ++
    leBytes 4 (r.adminTag.getD 0).toNat ++ leBytes 2 r.unflushed ++ leBytes 2 r.overrun ++
    leBytes 1 r.lines.length ++ leBytes 3 0 ++ lineBytes r.lines ++ leBytes 40 0 ++
    (allChannels.flatMap fun c => channelEntryBytes (r.channels.get c)) ++
    (allChannels.flatMap fun i => partitionBytes (r.partitions.get i) false)

end Sys2Proof.Machine
end

