-- ==== Sys2Proof/Machine/Rings.lean ====
section
/-! DEFINITION. The Completion Writer's shared operations: entries written, coalescing, vectors sent, bound channels
counted and rings deleted (04_completion_rings). -/

namespace Sys2Proof.Machine

/-- The ring's head, the index of the oldest unconsumed entry (R76): (write index - unconsumed) modulo size. -/
def Ring.head (x : Ring) : Nat := (x.write + x.size - x.unconsumed) % x.size

/-- The ring's vector is handed to the LIU, the unsignalled count becomes 0 and the delay timer stops (R88). -/
def sendVector (s : State) (r : Fin 9) : State :=
  (s.handOut (.message (s.ring r).vector)).setRing r { s.ring r with unsignalled := 0, timer := none }

/-- A ring with unsignalled entries sends its vector if it is ACTIVE (R92, R93). -/
def signalRest (s : State) (r : Fin 9) : State :=
  if (s.ring r).state = .active ∧ 0 < (s.ring r).unsignalled then sendVector s r else s

/-- After an entry is written, the ring's vector is sent or the delay timer starts (R88). -/
def coalesce (s : State) (r : Fin 9) (notify : Bool) : State :=
  let x := s.ring r
  if notify = true ∨ x.unsignalled = x.threshold ∨ x.delay = 0 then sendVector s r
  else s.setRing r { x with timer := some (x.timer.getD (x.delay * Config.tenthsPerMicro)) }

/-- The ring after one entry: the write index advances, the lap flips where it wraps, and the counts rise (R81). -/
def Ring.written (x : Ring) : Ring :=
  { x with
    write := if x.size ≤ x.write + 1 then 0 else x.write + 1
    lap := if x.size ≤ x.write + 1 then !x.lap else x.lap
    unconsumed := x.unconsumed + 1
    unsignalled := x.unsignalled + 1 }

/-- The Completion Writer hands one entry to the LIU, advances the ring and applies coalescing (R81). -/
def writeEntry (s : State) (r : Fin 9) (c : Completion) : State :=
  let x := s.ring r
  let t := s.handOut (.write (x.base + BitVec.ofNat 64 (16 * x.write)) (entryBytes c x.lap))
  coalesce (t.setRing r x.written) r c.notify

/-- The ring can take an entry (R81). -/
def Ring.hasRoom (x : Ring) : Bool := x.state == .active && x.unconsumed < x.size

/-- A channel bound to the ring has become ABSENT (R76). -/
def unbind (s : State) (r : Fin 9) : State := s.setRing r { s.ring r with bound := (s.ring r).bound - 1 }

/-- Every completion ring becomes ABSENT, ring 0 included (R78, R93). -/
def dropRings (s : State) : State := { s with rings := Vector.replicate 9 Ring.none }

/-- Each ACTIVE ring with unsignalled entries sends its vector, in ascending ring id (R93, R160). -/
def signalAll (s : State) : State := allRings.foldl signalRest s

/-- Completion ring 0 as ENABLE makes it (R79). -/
def adminRing0 (reg : AdminRingRegister) : Ring :=
  { state := .active, base := reg.completionBase, size := reg.size.toNat, write := 0, unconsumed := 0, lap := true,
    vector := 1, threshold := 1, delay := 0, unsignalled := 0, timer := none, bound := 0, service := 15 }

end Sys2Proof.Machine
end

