-- ==== Sys2Proof/Machine/Channels.lean ====
section
/-! DEFINITION. Channel contexts: pending counts, fetching conditions, eligibility and the scheduler's choice, endings
in the channel, and channels that become ABSENT (02_channels). -/

namespace Sys2Proof.Machine

/-- Entries pending in a submission ring (R26): (tail - head) modulo size. -/
def pendingCount (tail head size : Nat) : Nat := (tail + size - head) % size

/-- The channel's pending count (R26). -/
def Channel.pendingCount (c : Channel) : Nat := Machine.pendingCount c.tail c.head c.size

/-- The conditions under which the Ring Fetch Unit asks for a tag for a channel, the record's own apart (R28). -/
def channelWantsFetch (s : State) (c : Fin 16) : Bool :=
  s.ctl.op == .active && (s.chan c).state == .running && 0 < (s.chan c).pendingCount && (s.chan c).queue.length < 8

/-- The conditions under which the Ring Fetch Unit asks for a tag for the admin ring, the record's own apart (R131). -/
def adminWantsFetch (s : State) : Bool :=
  s.ctl.op == .active && s.admin.processor != .halted &&
    0 < pendingCount s.admin.tail s.admin.head s.admin.size && s.admin.queue.length < 4

/-- The number of entries one fetch reads (R28, R131): the least of pending, room and entries to the ring's end. -/
def fetchCount (pending room toEnd : Nat) : Nat := min pending (min room toEnd)

/-- A record with a read in flight becomes orphaned and a waiting request is withdrawn (R31, R129). -/
def FetchRecord.orphan : FetchRecord → FetchRecord
  | .empty => .empty
  | .requesting => .empty
  | .inFlight n => .orphaned n
  | .orphaned n => .orphaned n

/-- A request stands exactly while its conditions hold, if the record holds no read (R28, R131). -/
def FetchRecord.refreshed (wanted : Bool) : FetchRecord → FetchRecord
  | .empty => if wanted then .requesting else .empty
  | .requesting => if wanted then .requesting else .empty
  | .inFlight n => .inFlight n
  | .orphaned n => .orphaned n

/-- The record holds a read that has not ended (R28, R46). -/
def FetchRecord.holdsRead : FetchRecord → Bool
  | .empty | .requesting => false
  | .inFlight _ | .orphaned _ => true

/-! ### The Slot Scheduler (R33 to R35) -/

/-- The channel is eligible for a slot (R33). -/
def eligible (s : State) (c : Fin 16) : Bool :=
  let x := s.chan c
  ((s.ctl.op == .active && x.state == .running) ||
      (s.ctl.op == .quiescing && (x.state == .running || x.state == .paused || x.state == .halted) &&
        (s.ring x.ring).state != .faulted)) &&
    !x.queue.isEmpty && x.slot == none && x.held.length < 4

/-- The channel is eligible and of this class. -/
def eligibleIn (s : State) (k : ChannelClass) (c : Fin 16) : Bool := eligible s c && (s.chan c).cls == k

/-- The class of a choice (R34): URGENT if any URGENT channel is eligible. -/
def choiceClass (s : State) : ChannelClass :=
  if allChannels.any (eligibleIn s .urgent) then .urgent else .bulk

/-- The pointer and credit of a class (R35). -/
def Scheduler.turn (x : Scheduler) : ChannelClass → Turn
  | .urgent => x.urgent
  | .bulk => x.bulk

/-- Replaces the pointer and credit of a class. -/
def Scheduler.setTurn (x : Scheduler) (k : ChannelClass) (t : Turn) : Scheduler :=
  match k with
  | .urgent => { x with urgent := t }
  | .bulk => { x with bulk := t }

/-- The channel a class starts and its turn afterwards (R35). -/
def chooseIn (s : State) (k : ChannelClass) : Option (Fin 16 × Turn) :=
  let t := s.sched.turn k
  if eligibleIn s k t.pointer = true ∧ 0 < t.credit then some (t.pointer, { t with credit := t.credit - 1 })
  else (searchAfter t.pointer (eligibleIn s k)).map fun c => (c, { pointer := c, credit := (s.chan c).weight - 1 })

/-- The lowest-numbered IDLE slot (R34). -/
def idleSlot (s : State) : Option (Fin 4) := allSlots.find? fun k => (s.slot k).state == .idle

/-! ### Endings in the channel (R36 to R38) -/

/-- An ending that neither clears the clean flag nor halts the channel: OK or MARK_BROKEN (R36, R38). -/
def Status.harmless (st : Status) : Bool := st == .ok || st == .markBroken

/-- The channel after one of its descriptors ends with a status (R36, R38): the clean flag, the halt and the count. The
completion itself is appended by the caller. -/
def Channel.ended (c : Channel) (st : Status) : Channel :=
  { c with
    clean := c.clean && st.harmless
    state :=
      if c.stopOnError = true ∧ st.harmless = false ∧ (c.state = .running ∨ c.state = .paused) then .halted else c.state
    completed := c.completed + 1 }

/-- The completion of a fetched descriptor that ends without reaching a slot (R44, R157). -/
def unstartedCompletion (c : Fin 16) (f : Fetched) (st : Status) : Completion :=
  { tag := recordTag f.entry, bytesDone := 0, result := 0, channel := c.val + 1, status := st, head := f.headAfter,
    notify := descNotify f.entry }

/-- A bound channel that is RUNNING or PAUSED becomes HALTED when its ring faults (R39). -/
def Channel.haltFor (c : Channel) (r : Fin 9) : Channel :=
  if c.ring = r ∧ (c.state = .running ∨ c.state = .paused) then { c with state := .halted } else c

/-- One channel becomes ABSENT: its ring counts one bound channel fewer and a read in flight is orphaned (R24, R31). -/
def dropChannel (s : State) (c : Fin 16) : State :=
  ((unbind s (s.chan c).ring).setChan c Channel.none).setFetch c (s.fetchOf c).orphan

/-- Every channel becomes ABSENT and every read in flight for a channel ring is orphaned (R25, R31, R160). -/
def dropChannels (s : State) : State :=
  { s with
    channels := Vector.replicate 16 Channel.none
    fetch := tabulate 16 fun c => (s.fetchOf c).orphan }

end Sys2Proof.Machine
end

