-- ==== Sys2Proof/Machine/Health.lean ====
section
/-! DEFINITION. ECC findings of a read (R103, R104), the Health Store (R123 to R125), the refresh debt (R113 to R117) and
the Scrub Unit's running and stopping (R120). -/

namespace Sys2Proof.Machine

/-! ### ECC words and lines -/

/-- The addresses of the ECC words that `len` bytes from `addr` touch, ascending (R55, R97). -/
def wordAddresses (addr len : Nat) : List Nat :=
  (List.range ((addr % 8 + len + 7) / 8)).map fun i => (addr / 8 + i) * 8

/-- Each word with what the array yields for it; a word beyond the findings given reads as last written. -/
def pairFindings : List Nat → List Finding → List (Nat × Finding)
  | [], _ => []
  | a :: r, [] => (a, Finding.asWritten) :: pairFindings r []
  | a :: r, f :: fs => (a, f) :: pairFindings r fs

/-- The eight bytes a word delivers (R103). -/
def wordBytes (m : List Host.Cell) (w : Nat × Finding) : List Byte :=
  match w.2.data with
  | some d => leBytes 8 d.toNat
  | none => Memory.readBytes m w.1 8

/-- The lowest uncorrectable word of a read (R104). -/
def firstBad (ws : List (Nat × Finding)) : Option Nat :=
  (ws.find? fun w => w.2.condition == .uncorrectable).map Prod.fst

/-- The number of words of a read found in one condition. -/
def countWords (ws : List (Nat × Finding)) (c : WordCondition) : Nat :=
  (ws.filter fun w => w.2.condition == c).length

/-- The line that holds an address: 64 aligned bytes (R103). -/
def lineOf (a : Nat) : Nat := a / 64 * 64

/-- Each distinct line that holds an uncorrectable word, ascending, once (R104). -/
def badLines (ws : List (Nat × Finding)) : List Nat :=
  ((ws.filter fun w => w.2.condition == .uncorrectable).map fun w => lineOf w.1).eraseReps

/-- Every line whose 64 bytes lie wholly inside `len` bytes from `addr`, ascending (R105). -/
def wholeLines (addr len : Nat) : List Nat :=
  ((List.range (len / 64 + 1)).map fun i => ((addr + 63) / 64 + i) * 64).filter fun a => a + 64 ≤ addr + len

/-! ### Health Store -/

/-- A counter raised by `n` that saturates at `top` (R123). -/
def raised (top n c : Nat) : Nat := min top (c + n)

/-- One line offered to the error address list (R124). -/
def offerLine (s : State) (a : Nat) : State :=
  if s.health.lines.contains a then s
  else if s.health.lines.length < 8 then
    { s with health := { s.health with lines := s.health.lines ++ [a] } }.raise .errorListAdded
  else { s with health := { s.health with overflow := raised 255 1 s.health.overflow } }

/-- The ECC findings of a read reported to the Health Store (R104): errors counted, lines offered in ascending order. -/
def reportFindings (s : State) (ws : List (Nat × Finding)) : State :=
  let t :=
    { s with
      health :=
        { s.health with
          correctable := raised 4294967295 (countWords ws .corrected) s.health.correctable
          uncorrectable := raised 4294967295 (countWords ws .uncorrectable) s.health.uncorrectable } }
  (badLines ws).foldl offerLine t

/-- Lines written whole leave the error address list (R125). -/
def removeLines (s : State) (written : List Nat) : State :=
  { s with health := { s.health with lines := s.health.lines.filter fun a => !written.contains a } }

/-! ### Refresh debt -/

/-- The refresh request at the Port Arbiter is forced (R99, R112). -/
def RefreshEngine.forced (r : RefreshEngine) : Bool := r.limit < r.debt

/-- The interval timer starts with the interval in force and the debt is 1 (R109, R111, R113). -/
def RefreshEngine.start (r : RefreshEngine) : RefreshEngine := { r with debt := 1, timer := some r.interval }

/-- The interval timer stops at the grant of self-refresh entry; a pending interval is loaded (R113). -/
def RefreshEngine.stop (r : RefreshEngine) : RefreshEngine :=
  { r with timer := none, interval := r.pendingInterval.getD r.interval, pendingInterval := none }

/-- One refresh served (R115, R117): the debt falls by one, and a pending limit one below it comes into force. -/
def RefreshEngine.served (r : RefreshEngine) : RefreshEngine :=
  let d := r.debt - 1
  match r.pendingLimit with
  | some p => if d = p + 1 then { r with debt := d, limit := p, pendingLimit := none } else { r with debt := d }
  | none => { r with debt := d }

/-- The interval timer starts again at an expiry, with a pending interval loaded (R113). -/
def RefreshEngine.restarted (r : RefreshEngine) : RefreshEngine :=
  { r with
    interval := r.pendingInterval.getD r.interval
    pendingInterval := none
    timer := some (r.pendingInterval.getD r.interval) }

/-! ### Scrubbing (R120) -/

/-- Scrubbing runs (R120). -/
def State.scrubRuns (s : State) : Bool :=
  (s.ctl.op == .standby || s.ctl.op == .active || s.ctl.op == .quiescing) && s.memState == .ready

/-- Scrubbing starts: the tick timer starts with the full period, if the period is not off, and no request is pending
(R120). -/
def ScrubUnit.start (u : ScrubUnit) : ScrubUnit :=
  { u with timer := if u.period = 0 then none else some (u.period * Config.tenthsPerMicro), request := false }

/-- Scrubbing stops: the tick timer stops and a pending request is withdrawn (R120). -/
def ScrubUnit.halt (u : ScrubUnit) : ScrubUnit := { u with timer := none, request := false }

/-- A scrub line has been served: the request is gone and the pointer advances, wrapping at the capacity (R121). -/
def ScrubUnit.served (u : ScrubUnit) (bytes : Nat) : ScrubUnit :=
  { u with request := false, pointer := if bytes ≤ u.pointer + 64 then 0 else u.pointer + 64 }

end Sys2Proof.Machine
end

