-- ==== Sys2Proof/Machine/Partitions.lean ====
section
/-! DEFINITION. The Partition Table: reference checks, references taken and released, entries freed (01_partitions), and
the completion of the administrative command in execution, which the end of a release wait hands over. -/

namespace Sys2Proof.Machine

/-! ### The completion of an administrative command (R83, R135) -/

/-- The completion of an administrative command (R135). -/
def adminCompletion (c : AdminCommand) (st : Status) (result : Word32) : Completion :=
  { tag := recordTag c.entry, bytesDone := 0, result := result, channel := 0, status := st, head := c.headAfter,
    notify := false }

/-- The Admin Processor hands the completion of the command in execution to the Completion Writer (R83). -/
def State.handOverAdmin (s : State) (st : Status) (result : Word32) : State :=
  match s.admin.command with
  | none => s
  | some c =>
    { s with
      admin :=
        { s.admin with command := some { c with wait := .none }, handover := some (adminCompletion c st result) } }

/-! ### Reference checks (R5, R6) -/

/-- The five tests of R5 on one buffer reference, in order; `none` where every test passes. -/
def checkRef (s : State) (r : BufferRef) (c : Fin 16) (write : Bool) (len : Nat) : Option Status :=
  match partitionIndex r.partition with
  | none => some .partitionState
  | some i =>
    let p := s.part i
    if p.state = .free ∨ p.state = .releasing then some .partitionState
    else if r.generation ≠ p.generation then some .stale
    else if p.mask.getLsbD c.val = false then some .access
    else if write = true ∧ p.state ≠ .opened then some .protect
    else if p.length * 4096 < r.offset + len then some .bounds
    else none

/-- The absolute buffer address of a reference's first byte: its partition's base, and its offset (R52). -/
def refAddress (s : State) (r : BufferRef) : Nat :=
  match partitionIndex r.partition with
  | none => r.offset
  | some i => (s.part i).base * 4096 + r.offset

/-- Two ranges of `len` bytes share at least one byte (R52). -/
def rangesMeet (a b len : Nat) : Bool := a < b + len && b < a + len

/-- The Partition Table's answer to a presentation (R6, R52); `none` where every test passes. -/
def presentationStatus (s : State) (r : Record) (k : Kind) (c : Fin 16) : Option Status :=
  match checkRef s (refA r) c k.writes (descLength r) with
  | some st => some st
  | none =>
    if k = .copy then
      match checkRef s (refB r) c false (descLength r) with
      | some st => some st
      | none =>
        if rangesMeet (refAddress s (refA r)) (refAddress s (refB r)) (descLength r) then some .overlap else none
    else none

/-- One reference taken on the entry it names (R6). -/
def takeRef (s : State) (r : BufferRef) (write : Bool) : State :=
  match partitionIndex r.partition with
  | none => s
  | some i =>
    let p := s.part i
    s.setPart i { p with refs := p.refs + 1, writeRefs := p.writeRefs + write.toNat }

/-- The references of a descriptor taken in one happening (R6). -/
def takeRefs (s : State) (r : Record) (k : Kind) : State :=
  let t := takeRef s (refA r) k.writes
  if k = .copy then takeRef t (refB r) false else t

/-! ### Release (R8, R9, R16, R18) -/

/-- The torn flag set on the entry a write-kind reference names (R9). -/
def markTorn (s : State) (r : BufferRef) : State :=
  match partitionIndex r.partition with
  | none => s
  | some i => s.setPart i { s.part i with torn := true }

/-- One reference lowered on the entry it names (R8). -/
def dropRef (s : State) (r : BufferRef) (write : Bool) : State :=
  match partitionIndex r.partition with
  | none => s
  | some i =>
    let p := s.part i
    s.setPart i { p with refs := p.refs - 1, writeRefs := p.writeRefs - write.toNat }

/-- An entry becomes FREE and keeps its generation (R18). -/
def freePart (s : State) (i : Fin 16) : State := s.setPart i (Partition.freed (s.part i).generation)

/-- The command in execution waits for the references of entry `i` (R16). -/
def waitsForRefs (s : State) (i : Fin 16) : Bool :=
  match s.admin.command with
  | some c => c.wait == .references i
  | none => false

/-- A RELEASING entry whose reference count is 0 becomes FREE, and a RELEASE_PARTITION that waits for it completes
(R8, R16, R18). -/
def freeIfReleased (s : State) (r : BufferRef) : State :=
  match partitionIndex r.partition with
  | none => s
  | some i =>
    if (s.part i).state = .releasing ∧ (s.part i).refs = 0 then
      let t := freePart s i
      if waitsForRefs t i then t.handOverAdmin .ok 0 else t
    else s

/-- The references of an ended descriptor are released in one happening (R8); `torn` says that R9 requires the torn
flag. -/
def releaseRefs (s : State) (sl : Slot) (write torn : Bool) : State :=
  match sl.refs with
  | .none => s
  | .a =>
    let s1 := if torn then markTorn s (refA sl.entry) else s
    freeIfReleased (dropRef s1 (refA sl.entry) write) (refA sl.entry)
  | .ab =>
    let s1 := if torn then markTorn s (refA sl.entry) else s
    let s2 := dropRef (dropRef s1 (refA sl.entry) write) (refB sl.entry) false
    freeIfReleased (freeIfReleased s2 (refA sl.entry)) (refB sl.entry)

/-! ### Definition (R12) -/

/-- The ranges of two runs of units share at least one unit (R12). -/
def unitsMeet (base len base' len' : Nat) : Bool := base < base' + len' && base' < base + len

/-- The new range shares a unit with an entry that is not FREE (R12, test 4). -/
def overlapsDefined (s : State) (base len : Nat) : Bool :=
  allChannels.any fun i => (s.part i).state != .free && unitsMeet base len (s.part i).base (s.part i).length

/-- Every entry that `f` names becomes FREE (R22). -/
def freeWhere (s : State) (f : Partition → Bool) : State :=
  { s with
    partitions := tabulate 16 fun i =>
      if f (s.part i) then Partition.freed (s.part i).generation else s.part i }

end Sys2Proof.Machine
end

