-- ==== Sys2Proof/Machine/Slots.lean ====
section
/-! DEFINITION. Execution slots: pieces and their port operations, the CRC, deliveries, the end happening and stop
requests (03_descriptor_execution). -/

namespace Sys2Proof.Machine

/-! ### The CRC of a CHECKSUM (R63) -/

/-- One step of the CRC: a shift right by one bit, combined with the reversed polynomial where the lowest bit was 1. -/
def crcStep (x : Word32) : Word32 := if x.getLsbD 0 then (x >>> 1) ^^^ 0xEDB88320#32 else x >>> 1

/-- One byte taken into the CRC register. -/
def crcByte (x : Word32) (b : Byte) : Word32 :=
  crcStep (crcStep (crcStep (crcStep (crcStep (crcStep (crcStep (crcStep (x ^^^ b.setWidth 32))))))))

/-- The register before the first byte. -/
def crcStart : Word32 := 0xFFFFFFFF#32

/-- Bytes taken into the register, in ascending address order. -/
def crcFold (x : Word32) (bytes : List Byte) : Word32 := bytes.foldl crcByte x

/-- The CRC of the bytes taken into a register. -/
def crcResult (x : Word32) : Word32 := x ^^^ 0xFFFFFFFF#32

/-! ### Pieces and their port operations (R54, R55) -/

/-- Bytes from an address to the next 256-byte boundary (R54). -/
def toBoundary (a : Nat) : Nat := 256 - a % 256

/-- Absolute address of the first destination byte of a write kind, or of the first source byte of a READ_OUT or a
CHECKSUM: reference A (R50). -/
def rangeA (s : State) (sl : Slot) : Nat := refAddress s (refA sl.entry)

/-- Absolute address of the first source byte of a COPY: reference B (R50). -/
def rangeB (s : State) (sl : Slot) : Nat := refAddress s (refB sl.entry)

/-- The length of the piece that starts at position `p` of the range (R54). -/
def pieceLength (s : State) (sl : Slot) (p : Nat) : Nat :=
  let toCut :=
    if descKind sl.entry = some .copy then min (toBoundary (rangeA s sl + p)) (toBoundary (rangeB s sl + p))
    else toBoundary (rangeA s sl + p)
  min (descLength sl.entry - p) toCut

/-- The port operations that write `len` bytes to `addr`, the first of them at position `pos` of the range: head, body
and tail (R55). -/
def writeOps (pos addr len : Nat) : List SlotOp :=
  let headLen := if addr % 8 = 0 then 0 else min len (8 - addr % 8)
  let bodyLen := (len - headLen) / 8 * 8
  let tailLen := len - headLen - bodyLen
  (if headLen = 0 then [] else [{ kind := .rmw, pos := pos, addr := addr, len := headLen }]) ++
    (if bodyLen = 0 then [] else [{ kind := .write, pos := pos + headLen, addr := addr + headLen, len := bodyLen }]) ++
    (if tailLen = 0 then []
      else [{ kind := .rmw, pos := pos + headLen + bodyLen, addr := addr + headLen + bodyLen, len := tailLen }])

/-- Byte `i` of a FILL's range (R61). -/
def patternByte (pattern : BitVec 64) (i : Nat) : Byte := pattern.extractLsb' (8 * (i % 8)) 8

/-- The `n` bytes of a FILL's range from position `p` (R61). -/
def patternBytes (pattern : BitVec 64) (p n : Nat) : List Byte := (List.range n).map fun i => patternByte pattern (p + i)

/-- The data of the first piece in hand that one of its port operations writes. -/
def opData (sl : Slot) (o : SlotOp) : List Byte :=
  match sl.inHand with
  | [] => []
  | p :: _ => (p.data.drop (o.pos - p.pos)).take o.len

/-- A piece joins the pieces in hand in range order (R58). -/
def insertPiece (p : Piece) : List Piece → List Piece
  | [] => [p]
  | q :: r => if p.pos < q.pos then p :: q :: r else q :: insertPiece p r

/-- The pieces in hand that follow, with no gap, the `done` bytes delivered (R65, R73). -/
def contiguous : Nat → List Piece → List Piece
  | _, [] => []
  | done, p :: r => if p.pos = done then p :: contiguous (done + p.data.length) r else []

/-! ### What the slot asks for next (R56 to R62, R68) -/

/-- The slot begins to write the first piece in hand, if that piece is the next to deliver (R55, R58). -/
def beginWrite (s : State) (sl : Slot) : Slot :=
  match sl.inHand with
  | [] => sl
  | p :: _ =>
    if p.pos = sl.bytesDone then
      { sl with ops := writeOps p.pos (rangeA s sl + p.pos) p.data.length, port := .waiting }
    else sl

/-- The slot asks for the read burst of its next piece, from `addr` (R59, R60, R62). -/
def beginRead (s : State) (sl : Slot) (addr : Nat) : Slot :=
  let n := pieceLength s sl sl.nextPiece
  { sl with
    ops := [{ kind := .read, pos := sl.nextPiece, addr := addr + sl.nextPiece, len := n }]
    port := .waiting
    nextPiece := sl.nextPiece + n }

/-- The slot begins the next piece of a FILL (R61). -/
def beginFill (s : State) (sl : Slot) : Slot :=
  let n := pieceLength s sl sl.nextPiece
  beginWrite s
    { sl with
      inHand := [{ pos := sl.nextPiece, data := patternBytes (descPattern sl.entry) sl.nextPiece n }]
      nextPiece := sl.nextPiece + n }

/-- The slot, in RUN with no port operation under way, begins its next piece in the way of its kind. -/
def beginPiece (s : State) (sl : Slot) : Slot :=
  match descKind sl.entry with
  | some .writeIn => beginWrite s sl
  | some .readOut => beginRead s sl (rangeA s sl)
  | some .checksum => beginRead s sl (rangeA s sl)
  | some .copy => beginRead s sl (rangeB s sl)
  | some .fill => beginFill s sl
  | some .mark => sl
  | none => sl

/-! ### The end happening (R69, R70, R75) -/

/-- The status a slot's end cause gives (R47). -/
def Slot.status (sl : Slot) : Status :=
  match sl.cause with
  | .none => .ok
  | .complete => .ok
  | .status st => st

/-- The completion a slot appends (R70). -/
def slotCompletion (sl : Slot) (st : Status) : Completion :=
  { tag := recordTag sl.entry
    bytesDone := sl.bytesDone
    result := if descKind sl.entry = some .checksum then crcResult sl.crc else 0
    channel := sl.chan.val + 1
    status := st
    head := sl.headAfter
    notify := descNotify sl.entry }

/-- R9 requires the torn flag at this ending. -/
def tearsPartition (sl : Slot) (st : Status) : Bool :=
  (match descKind sl.entry with
    | some k => k.writes
    | none => false) && st != .ok && 0 < sl.bytesDone && sl.bytesDone < descLength sl.entry

/-- The working record follows a descriptor that a drain terminated in its slot (R157). -/
def noteTerminated (s : State) (sl : Slot) (st : Status) : State :=
  if s.ctl.op = .draining ∧ st = .terminated then
    let e := s.ctl.working.channels.get sl.chan
    let e' := { e with terminated := e.terminated + 1, slotDesc := some (recordTag sl.entry, sl.bytesDone) }
    { s with
      ctl := { s.ctl with working := { s.ctl.working with channels := s.ctl.working.channels.set sl.chan e' } } }
  else s

/-- Steps 2 to 4 of R69, and the channel's slot binding cleared. -/
def endInChannel (s : State) (sl : Slot) (st : Status) : State :=
  let c := (s.chan sl.chan).ended st
  noteTerminated (s.setChan sl.chan { c with held := c.held ++ [slotCompletion sl st], slot := none }) sl st

/-- The slot's references released and the torn flag set where R9 requires (R8). -/
def endReferences (s : State) (sl : Slot) (st : Status) : State :=
  releaseRefs s sl
    (match descKind sl.entry with
      | some k => k.writes
      | none => false)
    (tearsPartition sl st)

/-- The end happening of the descriptor in a slot, with its end status (R69); under SILENT, steps 1 and 5 alone (R75). -/
def endSlot (s : State) (k : Fin 4) (st : Status) : State :=
  let sl := s.slot k
  let t := endReferences s sl st
  (if sl.stop = .silent then t else endInChannel t sl st).setSlot k Slot.none

/-! ### Moving on (R48, R56, R58, R68) -/

/-- A slot in RUN moves on: it ends when every byte is delivered, and otherwise begins a piece or asks for the next port
operation of its piece. -/
def runSlot (s : State) (k : Fin 4) : State :=
  let sl := s.slot k
  if descLength sl.entry ≤ sl.bytesDone then
    endSlot (s.setSlot k { sl with state := .ending, cause := .complete }) k .ok
  else if sl.port = .none then
    if sl.ops = [] then s.setSlot k (beginPiece s sl) else s.setSlot k { sl with port := .waiting }
  else s

/-- A slot in ENDING moves on: it makes the deliveries left to it and then its end happening (R68). -/
def finishSlot (s : State) (k : Fin 4) : State :=
  let sl := s.slot k
  if sl.port = .inProgress then s
  else if sl.ops ≠ [] then s.setSlot k { sl with port := .waiting }
  else if sl.inHand ≠ [] then s.setSlot k (beginWrite s sl)
  else endSlot s k sl.status

/-- A slot moves on after something has reached it. -/
def advanceSlot (s : State) (k : Fin 4) : State :=
  match (s.slot k).state with
  | .idle => s
  | .check => s
  | .run => runSlot s k
  | .ending => finishSlot s k

/-! ### Orphaned host reads (R71) -/

/-- Every host read of a slot that is still waiting becomes orphaned (R71). -/
def orphanReads (s : State) (k : Fin 4) : State :=
  { s with
    link :=
      { s.link with
        tags := tabulate 16 fun t =>
          if (s.tag t).state = .waiting ∧ (s.tag t).holder = .slot k then { s.tag t with orphan := true }
          else s.tag t } }

/-! ### Failures and stop requests (R65, R72 to R74) -/

/-- The deliveries that remain to a slot that enters ENDING from RUN by a host read failure or a stop request (R65,
R73). -/
def trimDeliveries (sl : Slot) : Slot :=
  match descKind sl.entry with
  | some .writeIn => { sl with inHand := contiguous sl.bytesDone sl.inHand, reads := 0 }
  | some .fill =>
    if sl.port = .inProgress ∨ (sl.ops.head?.map SlotOp.pos).getD sl.bytesDone ≠ sl.bytesDone then sl
    else { sl with ops := [], inHand := [], port := .none }
  | _ =>
    if sl.port = .inProgress ∨ (sl.ops.head?.map SlotOp.kind) ≠ some .read then sl
    else { sl with ops := [], port := .none }

/-- A slot in RUN enters ENDING with an end cause, its outstanding reads orphaned, and finishes (R65, R73). -/
def leaveRun (s : State) (k : Fin 4) (sl : Slot) : State :=
  finishSlot ((orphanReads s k).setSlot k { trimDeliveries sl with state := .ending }) k

/-- A host read of the slot's descriptor fails (R65). -/
def slotReadFailed (s : State) (k : Fin 4) : State :=
  let sl := s.slot k
  if sl.state = .run then leaveRun s k { sl with cause := .status .hostReadError } else s

/-- The status a stop request asks for (R72); SILENT asks for no completion. -/
def StopRequest.cause : StopRequest → EndCause
  | .none => .none
  | .aborted => .status .aborted
  | .terminated => .status .terminated
  | .silent => .status .aborted

/-- The stop request a slot in ENDING holds after another arrives (R74). -/
def StopRequest.after (old new : StopRequest) : StopRequest := if old = .silent then .silent else new

/-- The end cause of a slot in ENDING after a stop request arrives (R74): ABORTED gives way to TERMINATED, and a
failure taken first stays. -/
def EndCause.after (c : EndCause) (new : StopRequest) : EndCause :=
  if c = .status .aborted ∧ new = .terminated then .status .terminated else c

/-- A slot takes a stop request (R72 to R74). -/
def stopSlot (s : State) (k : Fin 4) (q : StopRequest) : State :=
  let sl := s.slot k
  match sl.state with
  | .idle => s
  | .check =>
    endSlot (s.setSlot k { sl with state := .ending, cause := q.cause, stop := q }) k { sl with cause := q.cause }.status
  | .run => leaveRun s k { sl with cause := q.cause, stop := q }
  | .ending =>
    s.setSlot k
      { sl with
        stop := sl.stop.after q
        cause := if sl.stop = .silent then sl.cause else sl.cause.after q }

/-- Every slot that is not IDLE is given a stop request (R72). -/
def stopAllSlots (s : State) (q : StopRequest) : State := allSlots.foldl (fun t k => stopSlot t k q) s

/-! ### Release points of a slot's port operations (R56, R58 to R62, R66, R67) -/

/-- A media error is taken: the slot is in ENDING, with status MEDIA_ERROR unless an end cause was taken first (R66,
R67, R74). -/
def mediaError (sl : Slot) : Slot :=
  { sl with
    state := .ending
    cause := if sl.cause = .none then .status .mediaError else sl.cause
    reads := 0 }

/-- The slot after a write burst, or a read-modify-write that wrote: the piece is delivered with its last operation
(R58, R60, R61). -/
def opWritten (sl : Slot) : Slot :=
  match sl.ops with
  | [] => { sl with port := .none }
  | [_] =>
    match sl.inHand with
    | [] => { sl with port := .none, ops := [] }
    | p :: r => { sl with port := .none, ops := [], inHand := r, bytesDone := p.pos + p.data.length }
  | _ :: r => { sl with port := .none, ops := r }

/-- The slot after a read-modify-write whose word was uncorrectable (R67). -/
def opFailed (sl : Slot) (o : SlotOp) : Slot :=
  { mediaError sl with port := .none, ops := [], inHand := [], bytesDone := o.pos }

/-- A read burst's data reaches its slot (R59, R60, R62, R66): `good` are the bytes before the failing word, all bytes
where no word failed. DESIGN CHOICE (log entry 28): where a piece of a COPY begins inside the failing word and bytes of
that word are already delivered, bytes done stays the count of bytes delivered (R64) and does not fall to the range bytes
before the word (R66). -/
def readTaken (s : State) (k : Fin 4) (o : SlotOp) (good : List Byte) (failed : Bool) : State :=
  let sl0 := { s.slot k with port := .none, ops := [] }
  let sl := if failed then mediaError sl0 else sl0
  match descKind sl.entry with
  | some .readOut =>
    let t := if good = [] then s else s.handOut (.write (descHost sl.entry + BitVec.ofNat 64 o.pos) good)
    t.setSlot k { sl with bytesDone := sl.bytesDone + good.length }
  | some .checksum =>
    s.setSlot k { sl with bytesDone := sl.bytesDone + good.length, crc := crcFold sl.crc good }
  | some .copy =>
    if good = [] then s.setSlot k sl
    else
      s.setSlot k
        { sl with
          inHand := [{ pos := o.pos, data := good }]
          ops := writeOps o.pos (rangeA s sl + o.pos) good.length }
  | _ => s.setSlot k sl

/-- The port operation that slot `k` has in progress. -/
def opInProgress (s : State) (k : Fin 4) (kind : SlotOpKind) : Option SlotOp :=
  match (s.slot k).ops with
  | [] => none
  | o :: _ => if s.port.holder = .slot k ∧ (s.slot k).port = .inProgress ∧ o.kind = kind then some o else none

/-! ### Starting a descriptor (R35, R51, R53) -/

/-- A MARK is carried out (R37, R36, R53): the durable mark takes the value on a clean channel, and the clean flag is
then set. Gives the state and the MARK's status. -/
def carryOutMark (s : State) (c : Fin 16) (r : Record) : State × Status :=
  let x := s.chan c
  if x.clean then (s.setChan c { x with mark := descMark r, clean := true }, .ok)
  else (s.setChan c { x with clean := true }, .markBroken)

/-- The tests of a slot's own fields (R51). -/
def fieldStatus (r : Record) : Option Status :=
  match descKind r with
  | none => some .badKind
  | some .mark => none
  | some _ => if 1 ≤ descLength r ∧ descLength r ≤ 16777216 then none else some .badLength

/-- A slot in CHECK enters ENDING with a status, bytes done 0 and no references, and ends (R51, R52). -/
def refuseSlot (s : State) (k : Fin 4) (st : Status) : State :=
  endSlot (s.setSlot k { s.slot k with state := .ending, cause := .status st }) k st

/-- The slot's work in the happening of its start (R51, R53). -/
def checkFields (s : State) (k : Fin 4) : State :=
  let sl := s.slot k
  match fieldStatus sl.entry with
  | some st => refuseSlot s k st
  | none =>
    if descKind sl.entry = some .mark then
      let m := carryOutMark s sl.chan sl.entry
      endSlot (m.1.setSlot k { sl with state := .ending, cause := .complete }) k m.2
    else s

/-- A descriptor is started in a slot (R35): the oldest fetched descriptor leaves the channel, the channel is bound and
the slot enters CHECK. -/
def startSlot (s : State) (k : Fin 4) (c : Fin 16) (f : Fetched) (rest : List Fetched) : State :=
  let x := s.chan c
  (s.setChan c { x with queue := rest, slot := some k }).setSlot k
    { Slot.none with
      state := .check, entry := f.entry, chan := c, headAfter := f.headAfter, cls := x.cls, crc := crcStart }

end Sys2Proof.Machine
end

