-- ==== Sys2Proof/Machine/Tags.lean ====
section
/-! DEFINITION. Link tags: standing requests placed and withdrawn (R28, R57, R131), grants in their order (R169), and how
the holder of a read takes its end (R29, R30, R132, R133, R170). -/

namespace Sys2Proof.Machine

/-! ### Requests (R28, R57, R131) -/

/-- The slot asks for a tag for its next piece (R57). -/
def slotWantsTag (sl : Slot) : Bool :=
  sl.state == .run && descKind sl.entry == some .writeIn && sl.reads + sl.inHand.length < 2 &&
    sl.nextPiece < descLength sl.entry

/-- Every tag request stands exactly while the conditions of its requester hold. -/
def refreshRequests (s : State) : State :=
  { s with
    fetch := tabulate 16 fun c => (s.fetchOf c).refreshed (channelWantsFetch s c)
    adminFetch := s.adminFetch.refreshed (adminWantsFetch s)
    link := { s.link with slotRequests := tabulate 4 fun k => slotWantsTag (s.slot k) } }

/-! ### Grants (R169) -/

/-- The lowest-numbered FREE tag. -/
def freeTag (s : State) : Option (Fin 16) := allTags.find? fun t => (s.tag t).state == .free

/-- The request the LIU grants first (R169): slots, then the admin fetch, then channels. -/
def grantHolder (s : State) : Option TagHolder :=
  match searchAfter s.link.slotPointer fun k => s.link.slotRequests.get k with
  | some k => some (.slot k)
  | none =>
    if s.adminFetch = .requesting then some .admin
    else (searchAfter s.link.channelPointer fun c => s.fetchOf c == .requesting).map .channel

/-- A tag becomes WAITING with a read for a holder, and the read is handed to the outbound side (R167, R169). -/
def issueRead (s : State) (t : Fin 16) (h : TagHolder) (addr : HostAddr) (len pos : Nat) : State :=
  let u :=
    s.setTag t
      { state := .waiting, holder := h, addr := addr, len := len, pos := pos, data := [], orphan := false,
        left := s.link.timeoutMs * Config.tenthsPerMilli, timeoutMs := s.link.timeoutMs }
  { u with link := { u.link with outbound := u.link.outbound ++ [.read t addr len] } }

/-- A tag is granted to one holder, which fixes the address and length of its read (R28, R57, R131, R169). -/
def grantTo (s : State) (t : Fin 16) : TagHolder → State
  | .none => s
  | .slot k =>
    let sl := s.slot k
    let n := pieceLength s sl sl.nextPiece
    let sl' := { sl with reads := sl.reads + 1, nextPiece := sl.nextPiece + n }
    let u := issueRead s t (.slot k) (descHost sl.entry + BitVec.ofNat 64 sl.nextPiece) n sl.nextPiece
    let v := u.setSlot k sl'
    { v with
      link := { v.link with slotPointer := k, slotRequests := v.link.slotRequests.set k (slotWantsTag sl') } }
  | .admin =>
    let a := s.admin
    let n := fetchCount (pendingCount a.tail a.head a.size) (4 - a.queue.length) (a.size - a.head)
    { issueRead s t .admin (a.base + BitVec.ofNat 64 (64 * a.head)) (64 * n) 0 with adminFetch := .inFlight n }
  | .channel c =>
    let x := s.chan c
    let n := fetchCount x.pendingCount (8 - x.queue.length) (x.size - x.head)
    let u := (issueRead s t (.channel c) (x.base + BitVec.ofNat 64 (64 * x.head)) (64 * n) 0).setFetch c (.inFlight n)
    { u with link := { u.link with channelPointer := c } }

/-- Grants one after another, until no tag is FREE or no request stands; none while the link is DOWN (R169). -/
def grantTags : Nat → State → State
  | 0, s => s
  | n + 1, s =>
    if s.link.up then
      match freeTag s, grantHolder s with
      | some t, some h => grantTags n (grantTo s t h)
      | _, _ => s
    else s

/-- The Ring Fetch Unit and the slots place or withdraw their requests, and the LIU grants the tags that are FREE. At
most sixteen grants can follow one another, since each takes a FREE tag. -/
def settleLink (s : State) : State := grantTags 16 (refreshRequests s)

/-! ### How a holder takes the end of its read -/

/-- A descriptor read of a channel ring ends with its data (R29, R31). -/
def channelFetchDone (s : State) (c : Fin 16) (bytes : List Byte) : State :=
  match s.fetchOf c with
  | .inFlight n =>
    if s.atWork then
      let x := s.chan c
      let head := (x.head + n) % x.size
      let fetched := (splitRecords n bytes).map fun r => { entry := r, headAfter := head : Fetched }
      (s.setChan c { x with head := head, queue := x.queue ++ fetched }).setFetch c .empty
    else s.setFetch c .empty
  | .orphaned _ => s.setFetch c .empty
  | .empty => s
  | .requesting => s

/-- A descriptor read of a channel ring fails (R30, R31). -/
def channelFetchFailed (s : State) (c : Fin 16) : State :=
  match s.fetchOf c with
  | .inFlight _ =>
    if s.atWork then
      let x := s.chan c
      let x' := if x.state = .running ∨ x.state = .paused then { x with state := .halted } else x
      ((s.setChan c x').setFetch c .empty).raise .fetchError
    else s.setFetch c .empty
  | .orphaned _ => s.setFetch c .empty
  | .empty => s
  | .requesting => s

/-- A read of the admin submission ring ends with its data (R132). -/
def adminFetchDone (s : State) (bytes : List Byte) : State :=
  match s.adminFetch with
  | .inFlight n =>
    if s.atWork then
      let a := s.admin
      let head := (a.head + n) % a.size
      let fetched := (splitRecords n bytes).map fun r => { entry := r, headAfter := head : Fetched }
      { s with adminFetch := .empty, admin := { a with head := head, queue := a.queue ++ fetched } }
    else { s with adminFetch := .empty }
  | .orphaned _ => { s with adminFetch := .empty }
  | .empty => s
  | .requesting => s

/-- The Admin Processor after a failed fetch (R133): an IDLE one halts at once, an EXECUTING one when its command has
ended. -/
def Admin.failed (a : Admin) : Admin :=
  match a.processor with
  | .idle => { a with processor := .halted }
  | .executing => { a with haltAfter := true }
  | .halted => a

/-- A read of the admin submission ring fails (R133). -/
def adminFetchFailed (s : State) : State :=
  match s.adminFetch with
  | .inFlight _ =>
    if s.atWork then { s with adminFetch := .empty, admin := s.admin.failed }.raise .adminFault
    else { s with adminFetch := .empty }
  | .orphaned _ => { s with adminFetch := .empty }
  | .empty => s
  | .requesting => s

/-- The data of a piece of a WRITE_IN returns to its slot (R57, R58). -/
def slotReadDone (s : State) (k : Fin 4) (pos : Nat) (bytes : List Byte) : State :=
  let sl := s.slot k
  if sl.state = .run then
    advanceSlot
      (s.setSlot k { sl with reads := sl.reads - 1, inHand := insertPiece { pos := pos, data := bytes } sl.inHand }) k
  else s

/-- A read that has ended with all its data is handed to its holder, or discarded where it was orphaned (R170). -/
def readDone (s : State) (x : Tag) (bytes : List Byte) : State :=
  match x.holder with
  | .none => s
  | .slot k => if x.orphan then s else slotReadDone s k x.pos bytes
  | .admin => adminFetchDone s bytes
  | .channel c => channelFetchDone s c bytes

/-- A read that has failed is told to its holder, unless it was orphaned (R170). -/
def readFailed (s : State) (x : Tag) : State :=
  match x.holder with
  | .none => s
  | .slot k => if x.orphan then s else slotReadFailed s k
  | .admin => adminFetchFailed s
  | .channel c => channelFetchFailed s c

/-- One tag at a link down or a link reset (R173, R174): a WAITING read fails, and the tag becomes FREE. -/
def failTag (s : State) (t : Fin 16) : State :=
  let x := s.tag t
  let u := s.setTag t Tag.none
  if x.state = .waiting then readFailed u x else u

/-- Every WAITING read fails and every QUARANTINED tag becomes FREE (R173, R174). -/
def failAllTags (s : State) : State := allTags.foldl failTag s

end Sys2Proof.Machine
end

