-- ==== Sys2Proof/Machine/Arbiter.lean ====
section
/-! DEFINITION. The Port Arbiter: the order of grants and the effect of each grant (R99 to R101, R110, R111). -/

namespace Sys2Proof.Machine

/-- Slot `k` has a port request standing in class `cls` (R99). -/
def slotRequests (s : State) (cls : ChannelClass) (k : Fin 4) : Bool :=
  (s.slot k).port == .waiting && (s.slot k).cls == cls

/-- The request the Port Arbiter grants among those standing (R100), in a memory state that admits them (R108). -/
def portChoice (s : State) : PortHolder :=
  if s.memState ≠ .ready then .none
  else if s.refresh.forced then .refreshEngine
  else
    match searchAfter s.port.urgentPointer (slotRequests s .urgent) with
    | some k => .slot k
    | none =>
      match searchAfter s.port.bulkPointer (slotRequests s .bulk) with
      | some k => .slot k
      | none =>
        if 0 < s.refresh.debt then .refreshEngine
        else if s.port.entryRequest && s.slotsIdle then .selfRefreshEntry
        else if s.scrub.request && s.scrubRuns then .scrubUnit
        else .none

/-- The class pointers after a grant to slot `k` (R101). -/
def Port.pointed (p : Port) (cls : ChannelClass) (k : Fin 4) : Port :=
  match cls with
  | .urgent => { p with urgentPointer := k }
  | .bulk => { p with bulkPointer := k }

/-- The port granted to one requester (R100, R101); at the grant of self-refresh entry the interval timer stops (R110,
R113). -/
def grantPort (s : State) : PortHolder → State
  | .slot k =>
    { s with port := { s.port.pointed (s.slot k).cls k with holder := .slot k } }.setSlot k
      { s.slot k with port := .inProgress }
  | .selfRefreshEntry =>
    { s with port := { s.port with holder := .selfRefreshEntry, entryRequest := false }, refresh := s.refresh.stop }
  | .refreshEngine => { s with port := { s.port with holder := .refreshEngine } }
  | .scrubUnit => { s with port := { s.port with holder := .scrubUnit } }
  | .selfRefreshExit => s
  | .arrayStart => s
  | .none => s

/-- A free port is granted to the highest request standing, if any stands (R100). -/
def settlePort (s : State) : State :=
  if s.port.holder = .none then grantPort s (portChoice s) else s

/-- The holder's operation has reached its release point: the port is free until the next grant (R98). -/
def releasePort (s : State) : State := { s with port := { s.port with holder := .none } }

end Sys2Proof.Machine
end

