-- ==== Sys2Proof/Machine/Drain.lean ====
section
/-! DEFINITION. The State Controller's passages: the admin ring set up and dropped, the monitor disarmed, a quiesce that
ends, the three phases of a drain, the retention record, and what every happening is concluded with (07_administrative,
09_operating_states). -/

namespace Sys2Proof.Machine

/-! ### Shared passages -/

/-- The monitor when the operating state leaves ACTIVE (R146): ARMED and ALERT become DISARMED, both timers stop. -/
def Monitor.disarmed (m : Monitor) : Monitor :=
  if m.state = .armed ∨ m.state = .alert then { m with state := .disarmed, elapsed := none, graceLeft := none } else m

/-- The monitor when the operating state becomes ACTIVE after a self-refresh exit (R146). -/
def Monitor.untripped (m : Monitor) : Monitor := if m.state = .tripped then { m with state := .disarmed } else m

/-- The values held in ADMIN_RING pass the checks of ENABLE (R152). -/
def AdminRingRegister.valid (reg : AdminRingRegister) : Bool :=
  isRingSize 8 256 reg.size.toNat && aligned64 reg.submissionBase && aligned64 reg.completionBase

/-- The ADMIN_RING values after a reset (R128). -/
def AdminRingRegister.zero : AdminRingRegister := { submissionBase := 0, completionBase := 0, size := 0 }

/-- The admin ring set up by ENABLE (R79, R129, R152); an orphaned fetch record stays. -/
def setUpAdminRing (s : State) : State :=
  { s with
    admin := { Admin.none with base := s.adminRing.submissionBase, size := s.adminRing.size.toNat }
    rings := s.rings.set 0 (adminRing0 s.adminRing) }

/-- The admin ring ceases to exist (R129, R153): the processor is IDLE, the queue is dropped and a read in flight is
orphaned. -/
def dropAdminRing (s : State) : State := { s with admin := Admin.none, adminFetch := s.adminFetch.orphan }

/-! ### A deletion that ends (R44) -/

/-- The channel whose emptying the command in execution waits for. -/
def deletingChannel (s : State) : Option (Fin 16) :=
  match s.admin.command with
  | some { wait := .channelEmpty c, .. } => some c
  | _ => none

/-- The channel holds no descriptor and no completion (R44). -/
def Channel.isEmpty (x : Channel) : Bool := x.queue.isEmpty && x.slot.isNone && x.held.isEmpty

/-- A deleting channel that is empty becomes ABSENT, and the DELETE_CHANNEL completion is handed over with the channel's
completed-descriptor count (R44). -/
def endDeletion (s : State) : State :=
  match deletingChannel s with
  | none => s
  | some c =>
    if s.atWork = true ∧ (s.chan c).state = .deleting ∧ (s.chan c).isEmpty = true then
      (dropChannel s c).handOverAdmin .ok (s.chan c).completed
    else s

/-! ### A quiesce that ends (R46, R153) -/

/-- A channel that is empty while QUIESCING, its fetch record holding no read, becomes ABSENT (R46); a deleting channel
ends by R44. -/
def quiesceChannel (s : State) (c : Fin 16) : State :=
  let x := s.chan c
  if x.state ≠ .absent ∧ x.state ≠ .deleting ∧ x.isEmpty = true ∧ (s.fetchOf c).holdsRead = false then dropChannel s c
  else s

/-- Every channel is ABSENT. -/
def noChannels (s : State) : Bool := allChannels.all fun c => (s.chan c).state == .absent

/-- The quiesce ends (R153): vectors are sent, the rings and the admin ring go, and the state becomes STANDBY. -/
def endQuiesce (s : State) : State :=
  let t := dropAdminRing (dropRings (signalAll s))
  { t with ctl := { t.ctl with op := .standby } }

/-- The channels that can leave during QUIESCING leave, and the quiesce ends where nothing is left (R46, R153). -/
def quiesceStep (s : State) : State :=
  if s.ctl.op = .quiescing then
    let t := allChannels.foldl quiesceChannel s
    if noChannels t = true ∧ t.admin.processor ≠ .executing then endQuiesce t else t
  else s

/-! ### The start of a drain (R155, R156) -/

/-- The channel entry of the working record when STOP begins (R156). -/
def entryAtStop (x : Channel) : ChannelEntry :=
  if x.state = .absent then ChannelEntry.none else { ChannelEntry.none with existed := true, head := x.head }

/-- The working record as a trigger begins it (R155). -/
def workingRecord (s : State) (reason : DrainReason) : RetentionRecord :=
  { RetentionRecord.invalid with reason := reason, timestamp := s.time.micros }

/-- The drain's admin completion (R137, R156): the waiting completion of a command whose effect was complete, OK for the
ENTER_RETENTION that began the drain, TERMINATED for any other command in execution. -/
def drainCompletion (s : State) (reason : DrainReason) : Option Completion :=
  match s.admin.command with
  | none => none
  | some c =>
    match s.admin.handover with
    | some h => some h
    | none => some (adminCompletion c (if reason = .hostRequest then .ok else .terminated) 0)

/-- The Admin Processor stopped where it stands (R137): its command waits for nothing more. -/
def Admin.stopped (a : Admin) : Admin :=
  { a with handover := Option.none, command := a.command.map fun c => { c with wait := .stopped } }

/-- A drain from ACTIVE or QUIESCING begins with STOP (R155, R156); the slots' stop requests are given last. -/
def startDrain (s : State) (reason : DrainReason) : State :=
  let w :=
    { workingRecord s reason with
      adminTag := s.admin.command.map fun c => recordTag c.entry
      channels := tabulate 16 fun c => entryAtStop (s.chan c) }
  let t :=
    { s with
      ctl :=
        { s.ctl with
          op := .draining, phase := .stop, deadline := some (s.ctl.deadlineMs * Config.tenthsPerMilli),
          expired := false, adminDone := drainCompletion s reason, resetInExit := false, working := w }
      monitor := s.monitor.disarmed
      scrub := s.scrub.halt
      admin := s.admin.stopped }
  stopAllSlots t .terminated

/-! ### SETTLE (R160) -/

/-- The completions a channel still holds. -/
def Channel.left (x : Channel) : Nat := x.held.length + x.flush.length

/-- The completions still held in held lists, flush queues and as the drain's admin completion (R160). -/
def leftover (s : State) : Nat :=
  (allChannels.map fun c => (s.chan c).left).sum + (if s.ctl.adminDone.isSome then 1 else 0)

/-- The working record takes the durable mark and clean flag of a channel marked as existing (R160). -/
def entryAtSettle (e : ChannelEntry) (x : Channel) : ChannelEntry :=
  if e.existed then { e with mark := x.mark, clean := x.clean } else e

/-- SETTLE begins (R160): vectors are sent, what is left is discarded and counted, channels and rings go, and
self-refresh entry is requested. -/
def beginSettle (s : State) : State :=
  let t := signalAll s
  let w :=
    { t.ctl.working with
      unflushed := t.ctl.working.unflushed + leftover t
      channels := tabulate 16 fun c => entryAtSettle (t.ctl.working.channels.get c) (t.chan c) }
  let u := dropRings (dropChannels t)
  { u with
    ctl := { u.ctl with phase := .settle, deadline := none, expired := false, adminDone := none, working := w }
    admin := { Admin.none with base := u.admin.base, size := u.admin.size, tail := u.admin.tail, head := u.admin.head }
    adminFetch := u.adminFetch.orphan
    port := { u.port with entryRequest := true } }

/-- FLUSH ends with an outcome, and SETTLE begins in the same happening (R158). -/
def endFlush (s : State) (o : FlushOutcome) : State :=
  beginSettle { s with ctl := { s.ctl with working := { s.ctl.working with outcome := o } } }

/-- A STANDBY settles directly under PWR_WARN (R155). -/
def settleStandby (s : State) : State :=
  beginSettle
    { s with
      ctl := { s.ctl with op := .draining, phase := .settle, adminDone := none, working := workingRecord s .powerWarn }
      scrub := s.scrub.halt }

/-! ### STOP and FLUSH (R157, R158) -/

/-- The channel after its fetched descriptors end TERMINATED, oldest first, into the flush queue (R157). -/
def Channel.terminateQueue (c : Fin 16) (x : Channel) : Channel :=
  x.queue.foldl
    (fun y f => { y.ended .terminated with flush := y.flush ++ [unstartedCompletion c f .terminated] })
    { x with queue := [] }

/-- The fetched descriptors of a channel with no slot binding end TERMINATED, and the working record counts them
(R157). -/
def terminateFetched (s : State) (c : Fin 16) : State :=
  let x := s.chan c
  if x.slot = none ∧ x.queue ≠ [] then
    let e := s.ctl.working.channels.get c
    let e' := { e with terminated := e.terminated + x.queue.length }
    { s.setChan c (x.terminateQueue c) with
      ctl := { s.ctl with working := { s.ctl.working with channels := s.ctl.working.channels.set c e' } } }
  else s

/-- Every fetched queue is empty (R157). -/
def queuesEmpty (s : State) : Bool := allChannels.all fun c => (s.chan c).queue.isEmpty

/-- The reason and the link let FLUSH run (R157). -/
def flushAllowed (s : State) : Bool :=
  (s.ctl.working.reason == .powerWarn || s.ctl.working.reason == .hostRequest) && s.link.up

/-- STOP ends (R157, R159): FLUSH begins if the reason, the link and the deadline timer let it, and SETTLE otherwise. -/
def endStop (s : State) : State :=
  if flushAllowed s then
    if s.ctl.expired then endFlush s .deadline else { s with ctl := { s.ctl with phase := .flush } }
  else beginSettle s

/-- The STOP phase moves on: fetched descriptors end, and STOP ends when every slot is IDLE (R157). -/
def stopStep (s : State) : State :=
  if s.ctl.op = .draining ∧ s.ctl.phase = .stop then
    let t := allChannels.foldl terminateFetched s
    if t.slotsIdle = true ∧ queuesEmpty t = true then endStop t else t
  else s

/-- The completion that stands first in the FLUSH sequence, where it stands, and its ring (R158). -/
def flushNext (s : State) : Option (CompletionSource × Completion × Fin 9) :=
  match allChannels.find? fun c => (s.chan c).left != 0 with
  | some c =>
    match (s.chan c).held ++ (s.chan c).flush with
    | f :: _ => some (.channel c, f, (s.chan c).ring)
    | [] => none
  | none => s.ctl.adminDone.map fun f => (.admin, f, 0)

/-- FLUSH ends COMPLETE when its sequence is done (R158). -/
def flushStep (s : State) : State :=
  if s.ctl.op = .draining ∧ s.ctl.phase = .flush ∧ flushNext s = none then endFlush s .complete else s

/-! ### The retention record (R161) -/

/-- The working record finalised (R21, R160, R161). -/
def finalRecord (s : State) : RetentionRecord :=
  { s.ctl.working with
    valid := true
    sequence := s.ctl.record.sequence + 1
    partitions := tabulate 16 fun i => { s.part i with refs := 0, writeRefs := 0 }
    overrun := s.health.overrun
    lines := s.health.lines
    claimed := false }

/-! ### How a happening is concluded -/

/-- The passages that follow within a happening when their conditions have come to hold. -/
def settlePhases (s : State) : State := flushStep (stopStep (quiesceStep (endDeletion s)))

/-- A happening concluded: passages that follow from it, tag requests and grants, and a grant of a free port. -/
def conclude (s : State) : State := settlePort (settleLink (settlePhases s))

/-- A drain trigger taken in ACTIVE or QUIESCING starts a drain; elsewhere it changes nothing (R155). -/
def trigger (s : State) (reason : DrainReason) : State := if s.atWork then startDrain s reason else s

end Sys2Proof.Machine
end

