-- ==== Sys2Proof/Machine/Control.lean ====
section
/-! DEFINITION. Meanings of the register writes and of the configuration write: CONTROL, ADMIN_RING, NOTIFY, HEARTBEAT,
EVENTS (R27, R84 to R86, R95, R128, R130, R141 to R143, R151 to R154, R163, R167, R175). -/

namespace Sys2Proof.Machine

/-! ### CONTROL -/

/-- ENABLE carried out in STANDBY (R152): a link found down is taken as a link down in the same happening. -/
def enableStandby (s : State) : State :=
  let t := setUpAdminRing { s with ctl := { s.ctl with op := .active } }
  conclude (if s.link.up then t else startDrain t .linkDown)

/-- Self-refresh exit requested, which is granted at once (R111, R163). -/
def beginExit (s : State) : State :=
  { s with memState := .exiting, port := { s.port with holder := .selfRefreshExit } }

/-- ENABLE (R151, R152, R163). -/
def execEnable (s : State) : Out :=
  if s.power.core = false then .next s
  else
    match s.ctl.op with
    | .standby => .next (if s.adminRing.valid then enableStandby s else s.raise .enableRefused)
    | .retained =>
      if s.memState ≠ .selfRefresh then .next s
      else .next (if s.power.pwrWarn = false ∧ s.adminRing.valid = true then beginExit s else s.raise .enableRefused)
    | .init | .active | .quiescing | .draining | .memoryFault => .next s

/-- QUIESCE (R153). -/
def execQuiesce (s : State) : Out :=
  .next
    (if s.reached = true ∧ s.ctl.op = .active then
      conclude { s with ctl := { s.ctl with op := .quiescing }, monitor := s.monitor.disarmed }
    else s)

/-- The Slot Scheduler after a reset (R25): both class pointers at channel 16, with turn credit 0. -/
def Scheduler.fresh : Scheduler :=
  { urgent := { pointer := 15, credit := 0 }, bulk := { pointer := 15, credit := 0 } }

/-- FUNCTION_RESET carried out in ACTIVE or QUIESCING (R25, R78, R129, R154): all work is abandoned, the slots are given
SILENT last. -/
def functionReset (s : State) : State :=
  let t := dropAdminRing (dropRings (dropChannels s))
  stopAllSlots
    { t with
      ctl := { t.ctl with op := .standby }
      sched := .fresh
      monitor := t.monitor.disarmed
      adminRing := .zero }
    .silent

/-- FUNCTION_RESET (R151, R154); in STANDBY, where no channel or ring exists, the ADMIN_RING values (R128, R129) and the
Slot Scheduler (R25) are reset. -/
def execFunctionReset (s : State) : Out :=
  .next
    (if s.reached = false then s
    else if s.atWork then conclude (functionReset s)
    else if s.ctl.op = .standby then { s with adminRing := .zero, sched := .fresh }
    else s)

/-! ### ADMIN_RING -/

/-- A 64-bit value after an access to some of its bytes (R175); a 4-byte access carries its data in the low 32 bits. -/
def mergePart (old : BitVec 64) (part : AccessPart) (value : BitVec 64) : BitVec 64 :=
  match part with
  | .whole => value
  | .low => (old.extractLsb' 32 32) ++ (value.extractLsb' 0 32)
  | .high => (value.extractLsb' 0 32) ++ (old.extractLsb' 0 32)

/-- The ADMIN_RING register after an access (R128, R175); the size holds bits 0 to 15 alone. -/
def AdminRingRegister.after (reg : AdminRingRegister) (field : AdminRingField) (part : AccessPart)
    (value : BitVec 64) : AdminRingRegister :=
  match field with
  | .submissionBase => { reg with submissionBase := mergePart reg.submissionBase part value }
  | .completionBase => { reg with completionBase := mergePart reg.completionBase part value }
  | .size => { reg with size := (mergePart (reg.size.setWidth 64) part value).setWidth 16 }

/-- ADMIN_RING is writable (R128): in STANDBY, and in RETAINED while no self-refresh exit is in progress. -/
def adminRingWritable (s : State) : Bool :=
  s.ctl.op == .standby || (s.ctl.op == .retained && s.memState != .exiting)

/-- ADMIN_RING_WRITE (R128). -/
def execAdminRingWrite (field : AdminRingField) (part : AccessPart) (value : BitVec 64) (s : State) : Out :=
  .next
    (if s.reached = true ∧ adminRingWritable s = true then { s with adminRing := s.adminRing.after field part value }
    else s)

/-! ### NOTIFY -/

/-- A tail for the admin submission ring (R130); an accepted one may start or withdraw a fetch (R131). -/
def notifyAdminTail (index : Nat) (s : State) : State :=
  if (s.ctl.op = .active ∨ s.ctl.op = .quiescing ∨ s.ctl.op = .draining) ∧ index < s.admin.size then
    settleLink { s with admin := { s.admin with tail := index } }
  else s.raise .badNotify

/-- A tail for a channel ring (R27); an accepted one may start or withdraw a fetch (R28). -/
def notifyChannelTail (c : Fin 16) (index : Nat) (s : State) : State :=
  if (s.chan c).state = .absent ∨ (s.chan c).state = .deleting ∨ (s.chan c).size ≤ index then s.raise .badNotify
  else settleLink (s.setChan c { s.chan c with tail := index })

/-- NOTIFY_SQ_TAIL (R27, R130). -/
def execNotifySqTail (ring : BitVec 8) (index : BitVec 16) (s : State) : Out :=
  .next
    (if s.reached = false then s
    else if ring = 0 then notifyAdminTail index.toNat s
    else
      match channelIndex ring with
      | none => s.raise .badNotify
      | some c => notifyChannelTail c index.toNat s)

/-- The number of entries a head NOTIFY releases (R84): (index - head) modulo size. -/
def Ring.releasedBy (x : Ring) (index : Nat) : Nat := (index + x.size - x.head) % x.size

/-- A completion ring becomes FAULTED (R39, R86). -/
def faultRing (s : State) (r : Fin 9) : State :=
  let t := s.setRing r { s.ring r with state := .faulted }
  let u := if 0 < (t.ring r).unsignalled then sendVector t r else t
  let v := u.raise .cqFault
  { v with channels := tabulate 16 fun c => (v.chan c).haltFor r }

/-- A head NOTIFY that is not refused (R84). -/
def takeHead (s : State) (r : Fin 9) (index : Nat) : State :=
  let x := s.ring r
  if x.releasedBy index ≤ x.unconsumed then s.setRing r { x with unconsumed := x.unconsumed - x.releasedBy index }
  else faultRing s r

/-- NOTIFY_CQ_HEAD (R84 to R86). -/
def execNotifyCqHead (ring : BitVec 8) (index : BitVec 16) (s : State) : Out :=
  .next
    (if s.reached = false then s
    else
      match ringIndex ring with
      | none => s.raise .badNotify
      | some r =>
        if (s.ring r).state = .active ∧ index.toNat < (s.ring r).size then conclude (takeHead s r index.toNat)
        else s.raise .badNotify)

/-! ### HEARTBEAT -/

/-- The monitor's period in tenths of a µs: 1 ms × 2^E (R138). -/
def periodTenths (code : Nat) : Nat := Config.tenthsPerMilli * 2 ^ code

/-- The early limit in tenths of a µs: 125 × 2^E × k µs (R138); 0 with the period off. -/
def Monitor.earlyLimit (m : Monitor) : Nat :=
  match m.periodCode with
  | some e => 1250 * 2 ^ e * m.window
  | none => 0

/-- The monitor's grace in tenths of a µs (R138). -/
def Monitor.graceTenths (m : Monitor) : Nat := m.grace * Config.tenthsPerMilli

/-- A correct beat accepted (R142, R143): the count advances and the period starts from zero, in ARMED. -/
def Monitor.accepted (m : Monitor) : Monitor :=
  { m with state := .armed, beat := m.beat + 1, elapsed := some 0, graceLeft := none, last := .accepted }

/-- A correct beat that came early (R142): the count advances and the monitor is in ALERT. -/
def Monitor.earlyBeat (m : Monitor) : Monitor :=
  { m with state := .alert, beat := m.beat + 1, elapsed := none, graceLeft := some m.graceTenths, last := .early }

/-- HEARTBEAT taken by the Host Monitor (R141 to R143). -/
def takeBeat (s : State) (token : BitVec 8) : State :=
  let m := s.monitor
  match m.state with
  | .disarmed | .tripped => { s with monitor := { m with last := .ignored } }
  | .armed =>
    if token ≠ m.beat + 1 then { s with monitor := { m with last := .wrong } }
    else if m.elapsed.getD 0 < m.earlyLimit then { s with monitor := m.earlyBeat }.raiseAlert .early
    else { s with monitor := m.accepted }
  | .alert =>
    if token ≠ m.beat + 1 then { s with monitor := { m with last := .wrong } }
    else { s with monitor := m.accepted }

/-- HEARTBEAT_WRITE (R141); bits 8 to 31 of the value have no effect. -/
def execHeartbeatWrite (value : BitVec 32) (s : State) : Out :=
  .next (if s.reached then takeBeat s (value.setWidth 8) else s)

/-! ### EVENTS and the rest -/

/-- EVENTS_WRITE (R95). -/
def execEventsWrite (value : BitVec 32) (s : State) : Out :=
  .next (if s.reached then { s with events := s.events.cleared value } else s)

/-- REGISTER_WRITE_IGNORED (R166, R175): changes nothing. -/
def execRegisterWriteIgnored (_offset _width : Nat) (_value : BitVec 64) (s : State) : Out := .next s

/-- MESSAGE_ENABLE (R167). -/
def execMessageEnable (enabled : Bool) (granted : VectorsGranted) (s : State) : Out :=
  .next
    (if s.reached then { s with link := { s.link with messageEnable := enabled, vectors := granted } } else s)

end Sys2Proof.Machine
end

