-- ==== Sys2Proof/Machine/AdminCommands.lean ====
section
/-! DEFINITION. Meanings of the administrative commands. Each step is the Admin Processor's taking of the oldest fetched
command (R134): its checks in the order of its owning chapter, its effect, and its completion handed over or its wait
begun. -/

namespace Sys2Proof.Machine

/-! ### Taking a command (R134, R135) -/

/-- What a command does in the happening in which it is taken: it is complete, with a status and a result, or it
waits. -/
inductive Taken where
  | done (s : State) (st : Status) (result : Word32)
  | waits (s : State)

/-- A command refused by a check: nothing changes and the status is the check's (R135). -/
def Taken.refused (s : State) (st : Status) : Taken := .done s st 0

/-- The command's completion handed over, or nothing more while it waits (R134). -/
def Taken.state : Taken → State
  | .done s st result => s.handOverAdmin st result
  | .waits s => s

/-- The Admin Processor can take a command (R134): IDLE, in ACTIVE. -/
def canTake (s : State) : Bool := s.power.core && s.ctl.op == .active && s.admin.processor == .idle

/-- The oldest fetched command becomes the command in execution (R134). -/
def beginCommand (s : State) (f : Fetched) (rest : List Fetched) : State :=
  { s with
    admin :=
      { s.admin with
        queue := rest, processor := .executing,
        command := some { entry := f.entry, headAfter := f.headAfter, wait := .none } } }

/-- The taking of the oldest fetched command, if its code is one that `codes` accepts, with the effect `body` and the
happening's end `fin`. -/
def takeCommand (codes : Nat → Bool) (body : State → Record → Taken) (fin : State → State) (s : State) : Out :=
  match s.admin.queue with
  | [] => .next s
  | f :: rest =>
    if canTake s = true ∧ codes (commandCode f.entry) = true then
      .next (fin (body (beginCommand s f rest) f.entry).state)
    else .next s

/-- The command in execution begins to wait (R136). -/
def State.waitFor (s : State) (w : AdminWait) : State :=
  { s with admin := { s.admin with command := s.admin.command.map fun c => { c with wait := w } } }

/-- A record written to host memory as posted writes before the command's completion (R136, R180). -/
def postRecord (s : State) (r : Record) (bytes : List Byte) : State := s.handOut (.write (longAt r 8) bytes)

/-! ### Partition commands (R11 to R20) -/

/-- The checks common to the four partition commands that retained-pending refuses (R11). -/
def withPartition (s : State) (r : Record) (body : Fin 16 → Taken) : Taken :=
  if s.ctl.retainedPending then .refused s .retainedPending
  else
    match partitionIndex (byteAt r 8) with
    | none => .refused s .badId
    | some i => body i

/-- The retention class a byte codes (R178). -/
def retentionClass (b : BitVec 8) : Option RetentionClass :=
  match b.toNat with
  | 0 => some .discard
  | 1 => some .keep
  | _ => none

/-- DEFINE_PARTITION of entry `i` (R12, R13). -/
def definePart (s : State) (r : Record) (i : Fin 16) : Taken :=
  let base := (wordAt r 12).toNat
  let len := (wordAt r 16).toNat
  match retentionClass (byteAt r 9) with
  | none => .refused s .badParameter
  | some cls =>
    if len = 0 then .refused s .badParameter
    else if (s.part i).state ≠ .free then .refused s .alreadyExists
    else if s.capacity.units < base + len then .refused s .noSpace
    else if overlapsDefined s base len then .refused s .overlap
    else
      .done
        (s.setPart i
          { s.part i with
            state := .opened, base := base, length := len, mask := halfAt r 10, cls := cls,
            generation := (s.part i).generation + 1, torn := false })
        .ok 0

/-- DEFINE_PARTITION (R11 to R13). -/
def execDefinePartition (s : State) : Out :=
  takeCommand (· == 1) (fun s r => withPartition s r (definePart s r)) settleLink s

/-- FREEZE_PARTITION of entry `i` (R14). -/
def freezePart (s : State) (i : Fin 16) : Taken :=
  if (s.part i).state ≠ .opened then .refused s .wrongState
  else if (s.part i).writeRefs ≠ 0 then .refused s .inUse
  else if (s.part i).torn then .refused s .torn
  else .done (s.setPart i { s.part i with state := .frozen }) .ok 0

/-- FREEZE_PARTITION (R11, R14). -/
def execFreezePartition (s : State) : Out :=
  takeCommand (· == 2) (fun s r => withPartition s r (freezePart s)) settleLink s

/-- RELEASE_PARTITION of entry `i` (R15, R16). -/
def releasePart (s : State) (i : Fin 16) : Taken :=
  if (s.part i).state ≠ .opened ∧ (s.part i).state ≠ .frozen then .refused s .wrongState
  else if (s.part i).refs = 0 then .done (freePart s i) .ok 0
  else .waits ((s.setPart i { s.part i with state := .releasing }).waitFor (.references i))

/-- RELEASE_PARTITION (R11, R15, R16). -/
def execReleasePartition (s : State) : Out :=
  takeCommand (· == 3) (fun s r => withPartition s r (releasePart s)) settleLink s

/-- CLEAR_TORN of entry `i` (R19). -/
def clearTornPart (s : State) (i : Fin 16) : Taken :=
  if (s.part i).state ≠ .opened ∧ (s.part i).state ≠ .frozen then .refused s .wrongState
  else .done (s.setPart i { s.part i with torn := false }) .ok 0

/-- CLEAR_TORN (R11, R19). -/
def execClearTorn (s : State) : Out :=
  takeCommand (· == 4) (fun s r => withPartition s r (clearTornPart s)) settleLink s

/-- GET_PARTITIONS carried out (R20). -/
def getPartitions (s : State) (r : Record) : Taken :=
  if aligned64 (longAt r 8) then .done (postRecord s r (partitionsBytes s)) .ok 0 else .refused s .badParameter

/-- GET_PARTITIONS (R20). -/
def execGetPartitions (s : State) : Out := takeCommand (· == 5) getPartitions settleLink s

/-! ### Channel commands (R40 to R44) -/

/-- The channel class a byte codes (R178). -/
def channelClass (b : BitVec 8) : Option ChannelClass :=
  match b.toNat with
  | 0 => some .bulk
  | 1 => some .urgent
  | _ => none

/-- The stop-on-error flag a byte codes (R178). -/
def stopOnErrorFlag (b : BitVec 8) : Option Bool :=
  match b.toNat with
  | 0 => some false
  | 1 => some true
  | _ => none

/-- The base, size and weight of CREATE_CHANNEL are in range (R40). -/
def channelFieldsValid (r : Record) : Bool :=
  aligned64 (longAt r 16) && isRingSize 8 4096 (halfAt r 14).toNat && 1 ≤ (byteAt r 10).toNat &&
    (byteAt r 10).toNat ≤ 16

/-- The context CREATE_CHANNEL makes (R40). -/
def newChannel (r : Record) (cls : ChannelClass) (stopOnError : Bool) (ring : Fin 9) : Channel :=
  { Channel.none with
    state := .running, base := longAt r 16, size := (halfAt r 14).toNat, cls := cls, weight := (byteAt r 10).toNat,
    stopOnError := stopOnError, ring := ring, clean := true }

/-- A channel bound to a ring: the ring counts one more (R40, R76). -/
def bindChannel (s : State) (c : Fin 16) (x : Channel) : State :=
  (s.setChan c x).setRing x.ring { s.ring x.ring with bound := (s.ring x.ring).bound + 1 }

/-- CREATE_CHANNEL carried out (R40). -/
def createChannel (s : State) (r : Record) : Taken :=
  if s.ctl.retainedPending then .refused s .retainedPending
  else
    match channelIndex (byteAt r 8) with
    | none => .refused s .badId
    | some c =>
      if (s.chan c).state ≠ .absent then .refused s .alreadyExists
      else
        match ioRingIndex (byteAt r 12) with
        | none => .refused s .badId
        | some q =>
          if (s.ring q).state ≠ .active then .refused s .notFound
          else
            match channelClass (byteAt r 9), stopOnErrorFlag (byteAt r 11) with
            | some cls, some soe =>
              if channelFieldsValid r then .done (bindChannel s c (newChannel r cls soe q)) .ok 0
              else .refused s .badParameter
            | _, _ => .refused s .badParameter

/-- CREATE_CHANNEL (R40). -/
def execCreateChannel (s : State) : Out := takeCommand (· == 6) createChannel settleLink s

/-- The checks common to the commands on an existing channel (R41 to R43). -/
def withChannel (s : State) (r : Record) (body : Fin 16 → Taken) : Taken :=
  match channelIndex (byteAt r 8) with
  | none => .refused s .badId
  | some c => if (s.chan c).state = .absent then .refused s .notFound else body c

/-- The stop request of a deletion given to the channel's slot, if it is bound to one (R43, R72). -/
def stopBoundSlot (s : State) (c : Fin 16) : State :=
  match (s.chan c).slot with
  | none => s
  | some k => stopSlot s k .aborted

/-- DELETE_CHANNEL begun (R31, R43): the channel is DELETING, its read is orphaned and its slot is stopped. -/
def deleteChan (s : State) (c : Fin 16) : Taken :=
  let t := (s.setChan c { s.chan c with state := .deleting }).setFetch c (s.fetchOf c).orphan
  .waits (stopBoundSlot (t.waitFor (.channelEmpty c)) c)

/-- DELETE_CHANNEL (R43, R44); a channel already empty is ABSENT in the same happening. -/
def execDeleteChannel (s : State) : Out :=
  takeCommand (· == 7) (fun s r => withChannel s r (deleteChan s)) conclude s

/-- PAUSE_CHANNEL carried out (R41). -/
def pauseChan (s : State) (c : Fin 16) : Taken :=
  if (s.chan c).state ≠ .running then .refused s .wrongState
  else .done (s.setChan c { s.chan c with state := .paused }) .ok (s.chan c).completed

/-- PAUSE_CHANNEL (R41). -/
def execPauseChannel (s : State) : Out :=
  takeCommand (· == 8) (fun s r => withChannel s r (pauseChan s)) settleLink s

/-- RESUME_CHANNEL carried out (R42). -/
def resumeChan (s : State) (c : Fin 16) : Taken :=
  let x := s.chan c
  if (x.state = .paused ∨ x.state = .halted) ∧ (s.ring x.ring).state ≠ .faulted then
    .done (s.setChan c { x with state := .running }) .ok 0
  else .refused s .wrongState

/-- RESUME_CHANNEL (R42). -/
def execResumeChannel (s : State) : Out :=
  takeCommand (· == 9) (fun s r => withChannel s r (resumeChan s)) settleLink s

/-! ### Completion ring commands (R91, R92) -/

/-- The fields of CREATE_CQ are in range (R91). -/
def cqFieldsValid (r : Record) : Bool :=
  aligned64 (longAt r 16) && isRingSize 8 4096 (halfAt r 14).toNat && 1 ≤ (byteAt r 9).toNat &&
    (byteAt r 9).toNat ≤ 15 && 1 ≤ (byteAt r 10).toNat && (byteAt r 10).toNat ≤ 64 && (halfAt r 12).toNat ≤ 1000

/-- The ring CREATE_CQ makes (R91). -/
def newRing (r : Record) : Ring :=
  { state := .active, base := longAt r 16, size := (halfAt r 14).toNat, write := 0, unconsumed := 0, lap := true,
    vector := (byteAt r 9).toNat, threshold := (byteAt r 10).toNat, delay := (halfAt r 12).toNat, unsignalled := 0,
    timer := none, bound := 0, service := 15 }

/-- CREATE_CQ carried out (R91). -/
def createCq (s : State) (r : Record) : Taken :=
  match ioRingIndex (byteAt r 8) with
  | none => .refused s .badId
  | some q =>
    if (s.ring q).state ≠ .absent then .refused s .alreadyExists
    else if cqFieldsValid r then .done (s.setRing q (newRing r)) .ok 0
    else .refused s .badParameter

/-- CREATE_CQ (R91). -/
def execCreateCq (s : State) : Out := takeCommand (· == 10) createCq settleLink s

/-- DELETE_CQ carried out (R92). -/
def deleteCq (s : State) (r : Record) : Taken :=
  match ioRingIndex (byteAt r 8) with
  | none => .refused s .badId
  | some q =>
    if (s.ring q).state = .absent then .refused s .notFound
    else if (s.ring q).bound ≠ 0 then .refused s .inUse
    else .done ((signalRest s q).setRing q Ring.none) .ok 0

/-- DELETE_CQ (R92). -/
def execDeleteCq (s : State) : Out := takeCommand (· == 11) deleteCq settleLink s

/-! ### Refresh, scrub and health commands (R116, R122, R126, R127) -/

/-- A new limit at the Refresh Engine (R116): in force at once if it is no less than the debt less one, and pending
otherwise. -/
def RefreshEngine.withLimit (e : RefreshEngine) (limit : Nat) : RefreshEngine :=
  if e.debt - 1 ≤ limit then { e with limit := limit, pendingLimit := none } else { e with pendingLimit := some limit }

/-- SET_REFRESH carried out (R116). -/
def setRefresh (s : State) (r : Record) : Taken :=
  let interval := (halfAt r 8).toNat
  let limit := (byteAt r 10).toNat
  if interval < 10 ∨ 156 < interval then .refused s .badParameter
  else if 7 < limit then .refused s .badParameter
  else
    .done { s with refresh := { s.refresh with pendingInterval := some interval }.withLimit limit } .ok
      (if s.refresh.debt - 1 ≤ limit then 0 else 1)

/-- SET_REFRESH (R116). -/
def execSetRefresh (s : State) : Out := takeCommand (· == 12) setRefresh settleLink s

/-- The Scrub Unit after SET_SCRUB (R122); `runs` says that scrubbing is running by R120. -/
def ScrubUnit.withPeriod (u : ScrubUnit) (runs : Bool) (period : Nat) : ScrubUnit :=
  if period = 0 then { u with period := 0, timer := none, request := false }
  else if u.period = 0 then
    { u with
      period := period
      timer := if runs then some (period * Config.tenthsPerMicro) else u.timer
      request := if runs then false else u.request }
  else { u with period := period, timer := u.timer.map fun _ => period * Config.tenthsPerMicro }

/-- SET_SCRUB carried out (R122). -/
def setScrub (s : State) (r : Record) : Taken :=
  let period := (wordAt r 8).toNat
  if 65535 < period then .refused s .badParameter
  else .done { s with scrub := s.scrub.withPeriod s.scrubRuns period } .ok 0

/-- SET_SCRUB (R122). -/
def execSetScrub (s : State) : Out := takeCommand (· == 13) setScrub settleLink s

/-- GET_HEALTH carried out (R127). -/
def getHealth (s : State) (r : Record) : Taken :=
  if aligned64 (longAt r 8) then .done (postRecord s r (healthBytes s)) .ok 0 else .refused s .badParameter

/-- GET_HEALTH (R127). -/
def execGetHealth (s : State) : Out := takeCommand (· == 14) getHealth settleLink s

/-- CLEAR_ERRORS carried out (R126). -/
def clearErrors (s : State) (_r : Record) : Taken :=
  .done { s with health := { s.health with lines := [], overflow := 0 } } .ok
    (BitVec.ofNat 32 s.health.lines.length)

/-- CLEAR_ERRORS (R126). -/
def execClearErrors (s : State) : Out := takeCommand (· == 15) clearErrors settleLink s

/-! ### Settings (R140, R159, R172) -/

/-- The Host Monitor armed with new settings (R140). -/
def Monitor.rearmed (m : Monitor) (code window grace : Nat) : Monitor :=
  { m with
    periodCode := some code, window := window, grace := grace, state := .armed, elapsed := some 0,
    graceLeft := none }

/-- The Host Monitor with its period turned off (R140). -/
def Monitor.turnedOff (m : Monitor) : Monitor :=
  if m.state = .armed then { m with periodCode := none, state := .disarmed, elapsed := none }
  else { m with periodCode := none }

/-- SET_MONITOR carried out (R140). -/
def setMonitor (s : State) (r : Record) : Taken :=
  let code := (byteAt r 8).toNat
  let window := (byteAt r 9).toNat
  let grace := (halfAt r 10).toNat
  let result := s.monitor.beat.setWidth 32
  if 15 < code ∧ code ≠ 255 then .refused s .badParameter
  else if code ≠ 255 ∧ (7 < window ∨ grace < 1 ∨ 1000 < grace) then .refused s .badParameter
  else if s.monitor.state = .alert then .refused s .wrongState
  else if code = 255 then .done { s with monitor := s.monitor.turnedOff } .ok result
  else .done { s with monitor := s.monitor.rearmed code window grace } .ok result

/-- SET_MONITOR (R140). -/
def execSetMonitor (s : State) : Out := takeCommand (· == 16) setMonitor settleLink s

/-- SET_LINK_TIMEOUT carried out (R172). -/
def setLinkTimeout (s : State) (r : Record) : Taken :=
  let ms := (halfAt r 8).toNat
  if ms < 1 ∨ 255 < ms then .refused s .badParameter
  else .done { s with link := { s.link with timeoutMs := ms } } .ok 0

/-- SET_LINK_TIMEOUT (R172). A read granted in this very happening, the admin fetch that the command's leaving the
fetched queue makes room for, is granted after the value has changed and runs under the new timeout: DESIGN CHOICE, log
entry 26. -/
def execSetLinkTimeout (s : State) : Out := takeCommand (· == 17) setLinkTimeout settleLink s

/-- SET_DRAIN carried out (R159). -/
def setDrain (s : State) (r : Record) : Taken :=
  let ms := (halfAt r 8).toNat
  if ms < 1 ∨ 255 < ms then .refused s .badParameter
  else .done { s with ctl := { s.ctl with deadlineMs := ms } } .ok 0

/-- SET_DRAIN (R159). -/
def execSetDrain (s : State) : Out := takeCommand (· == 18) setDrain settleLink s

/-! ### Retention (R164, R165) -/

/-- ENTER_RETENTION (R165): a drain with reason HOST_REQUEST starts, and the command stays in execution. -/
def execEnterRetention (s : State) : Out :=
  takeCommand (· == 19) (fun s _ => .waits (startDrain s .hostRequest)) conclude s

/-- GET_RETENTION_RECORD carried out (R165). -/
def getRetentionRecord (s : State) (r : Record) : Taken :=
  if aligned64 (longAt r 8) = false then .refused s .badParameter
  else if s.ctl.record.valid = false then .refused s .notRetained
  else .done (postRecord s r (retentionBytes s.ctl.record)) .ok s.ctl.record.sequence

/-- GET_RETENTION_RECORD (R165). -/
def execGetRetentionRecord (s : State) : Out := takeCommand (· == 20) getRetentionRecord settleLink s

/-- Retained contents resolved (R164): the record is marked claimed and retained-pending is clear. -/
def resolveRetained (s : State) : State :=
  { s with ctl := { s.ctl with retainedPending := false, record := { s.ctl.record with claimed := true } } }

/-- CLAIM_RETAINED carried out (R22, R164). -/
def claimRetained (s : State) (_r : Record) : Taken :=
  if s.ctl.retainedPending = false then .refused s .notRetained
  else
    .done (resolveRetained (freeWhere s fun p => p.cls == .discard && p.state != .free)) .ok s.ctl.record.sequence

/-- CLAIM_RETAINED (R164). -/
def execClaimRetained (s : State) : Out := takeCommand (· == 21) claimRetained settleLink s

/-- DISCARD_RETAINED carried out (R22, R164). -/
def discardRetained (s : State) (_r : Record) : Taken :=
  if s.ctl.retainedPending = false then .refused s .notRetained
  else .done (resolveRetained (freeWhere s fun p => p.state != .free)) .ok s.ctl.record.sequence

/-- DISCARD_RETAINED (R164). -/
def execDiscardRetained (s : State) : Out := takeCommand (· == 22) discardRetained settleLink s

/-- UNKNOWN_COMMAND (R135): a code that names no command completes BAD_COMMAND. -/
def execUnknownCommand (s : State) : Out :=
  takeCommand (fun n => !isKnownCode n) (fun s _ => .refused s .badCommand) settleLink s

end Sys2Proof.Machine
end

