-- ==== Sys2Proof/Machine/ArrayCare.lean ====
section
/-! DEFINITION. Meanings of the steps that keep the array: refresh, scrub line, self-refresh entry and exit, and the two
timers that ask for refresh and scrub (R107, R110, R111, R114, R115, R119, R121, R160, R163). -/

namespace Sys2Proof.Machine

/-- REFRESH (R115): one refresh served, and the next grant. -/
def execRefresh (s : State) : Out :=
  .next
    (if s.power.core = true ∧ s.port.holder = .refreshEngine then
      settlePort { releasePort s with refresh := s.refresh.served }
    else s)

/-- The array after a scrub line (R107): the whole line is written back where at least one word was corrected and none
was uncorrectable. -/
def scrubWrites (ws : List (Nat × Finding)) : Bool :=
  (firstBad ws).isNone && 0 < countWords ws .corrected

/-- SCRUB_LINE carried out (R107, R121). -/
def scrubLineEnd (s : State) (findings : List Finding) : State :=
  let a := s.scrub.pointer
  let ws := pairFindings (wordAddresses a 64) (findings.take 8)
  let t := { releasePort s with scrub := s.scrub.served s.capacity.bytes }
  let u :=
    if scrubWrites ws then
      removeLines { t with mem := Memory.writeBytes s.mem a (ws.flatMap (wordBytes s.mem)) } [a]
    else t
  settlePort (reportFindings u ws)

/-- SCRUB_LINE (R107, R121). -/
def execScrubLine (findings : List Finding) (s : State) : Out :=
  if s.power.core = true ∧ s.port.holder = .scrubUnit then
    if s.scrub.pointer + 64 ≤ s.capacity.bytes then .next (scrubLineEnd s findings) else .fault .beyondCapacity
  else .next s

/-- SELF_REFRESH_ENTRY carried out (R110, R160): the record replaces the old one and the state becomes RETAINED. -/
def entryComplete (s : State) : State :=
  { releasePort s with
    memState := .selfRefresh
    admin := Admin.none
    ctl := { s.ctl with op := .retained, phase := .none, record := finalRecord s, working := .invalid } }.raise
    .retentionEntered

/-- SELF_REFRESH_ENTRY (R160). -/
def execSelfRefreshEntry (s : State) : Out :=
  .next
    (if s.power.core = true ∧ s.port.holder = .selfRefreshEntry then entryComplete s else s)

/-- The drain triggers standing as a self-refresh exit completes (R155, R163, R174). -/
def exitTriggers (s : State) : List DrainReason :=
  (if s.power.pwrWarn then [.powerWarn] else []) ++ (if s.link.up then [] else [.linkDown]) ++
    (if s.ctl.resetInExit then [.linkReset] else [])

/-- The triggers that stand are taken; which of several is taken first is a free value (R155). -/
def takeTriggers (s : State) : List DrainReason → State
  | [] => s
  | [r] => startDrain s r
  | r :: q :: rest =>
    let all := r :: q :: rest
    { startDrain s (all.getD (Config.firstTrigger s.freeCount % all.length) r) with freeCount := s.freeCount + 1 }

/-- Self-refresh exit completes (R111, R163): the state becomes ACTIVE with retained-pending set. -/
def exitComplete (s : State) : State :=
  setUpAdminRing
    { releasePort s with
      memState := .ready
      refresh := s.refresh.start
      scrub := s.scrub.start
      monitor := s.monitor.untripped
      ctl := { s.ctl with op := .active, retainedPending := true } }

/-- SELF_REFRESH_EXIT (R111, R163, R174). -/
def execSelfRefreshExit (s : State) : Out :=
  .next
    (if s.power.core = true ∧ s.port.holder = .selfRefreshExit then
      conclude (takeTriggers (exitComplete s) (exitTriggers s))
    else s)

/-- The debt raised at an expiry, or an overrun counted (R114). -/
def accrue (s : State) : State :=
  if s.refresh.debt < s.refresh.limit + 1 then
    { s with refresh := { s.refresh with debt := s.refresh.debt + 1 } }
  else { s with health := { s.health with overrun := raised 65535 1 s.health.overrun } }.raise .refreshOverrun

/-- INTERVAL_EXPIRY carried out (R113, R114). -/
def intervalExpired (s : State) : State :=
  let t := accrue s
  settlePort { t with refresh := t.refresh.restarted }

/-- INTERVAL_EXPIRY (R114): its arrival says that the time left has passed. -/
def execIntervalExpiry (s : State) : Out :=
  if s.power.core = false then .next s
  else
    match s.refresh.timer with
    | none => .next s
    | some left => .next (intervalExpired (s.elapse left))

/-- The tick taken by the Scrub Unit (R119). -/
def scrubTicked (s : State) : State :=
  let timer := some (s.scrub.period * Config.tenthsPerMicro)
  if s.scrub.request then
    { s with
      scrub := { s.scrub with timer := timer }
      health := { s.health with deferral := raised 65535 1 s.health.deferral } }
  else settlePort { s with scrub := { s.scrub with timer := timer, request := true } }

/-- SCRUB_TICK (R119). -/
def execScrubTick (s : State) : Out :=
  if s.power.core = false then .next s
  else
    match s.scrub.timer with
    | none => .next s
    | some left => .next (scrubTicked (s.elapse left))

end Sys2Proof.Machine
end

