-- ==== Sys2Proof/Machine/Execution.lean ====
section
/-! DEFINITION. Meanings of the steps of descriptors: the Slot Scheduler's choice, the presentation, and the release
points of a slot's port operations (R34, R35, R51, R52, R97, R98, R103 to R106). -/

namespace Sys2Proof.Machine

/-- The Slot Scheduler's choice carried out (R35), with the slot's field checks (R51, R53). -/
def scheduleChoice (s : State) (k : Fin 4) (c : Fin 16) (turn : Turn) : State :=
  match (s.chan c).queue with
  | [] => s
  | f :: rest =>
    checkFields { startSlot s k c f rest with sched := s.sched.setTurn (choiceClass s) turn } k

/-- SLOT_SCHEDULER_CHOICE (R34, R35): made whenever a slot is IDLE and a channel is eligible. -/
def execSlotSchedulerChoice (s : State) : Out :=
  if s.power.core = false then .next s
  else
    match idleSlot s, chooseIn s (choiceClass s) with
    | some k, some (c, turn) => .next (conclude (scheduleChoice s k c turn))
    | _, _ => .next s

/-- The slot whose every test passed holds its references and enters RUN (R6, R48, R52). -/
def enterRun (s : State) (k : Fin 4) (kind : Kind) : State :=
  let sl := s.slot k
  advanceSlot
    ((takeRefs s sl.entry kind).setSlot k
      { sl with state := .run, refs := if kind = .copy then .ab else .a }) k

/-- PRESENTATION (R6, R52) by a slot in CHECK. -/
def execPresentation (k : Fin 4) (s : State) : Out :=
  let sl := s.slot k
  if s.power.core = false ∨ sl.state ≠ .check then .next s
  else
    match descKind sl.entry with
    | none => .next s
    | some kind =>
      match presentationStatus s sl.entry kind sl.chan with
      | some st => .next (conclude (refuseSlot s k st))
      | none => .next (conclude (enterRun s k kind))

/-- The slot that holds the port with an operation of one kind, and that operation. -/
def slotAtPort (s : State) (kind : SlotOpKind) : Option (Fin 4 × SlotOp) :=
  match s.port.holder with
  | .slot k => (opInProgress s k kind).map fun o => (k, o)
  | _ => none

/-- Every byte of the operation's ECC words lies in buffer memory (R1, R97). -/
def withinArray (s : State) (o : SlotOp) : Bool := (o.addr + o.len + 7) / 8 * 8 ≤ s.capacity.bytes

/-- The bytes a read burst delivers: those of its words before the lowest uncorrectable one (R104). -/
def burstBytes (m : List Host.Cell) (o : SlotOp) (ws : List (Nat × Finding)) : List Byte :=
  let all := ((ws.flatMap (wordBytes m)).drop (o.addr % 8)).take o.len
  match firstBad ws with
  | none => all
  | some a => all.take (a - o.addr)

/-- READ_BURST carried out (R56, R104): the slot's report, the Health Store's, and the next requests and grant (R98). -/
def readBurstEnd (s : State) (k : Fin 4) (o : SlotOp) (findings : List Finding) : State :=
  let ws := pairFindings (wordAddresses o.addr o.len) findings
  let t := readTaken (releasePort s) k o (burstBytes s.mem o ws) (firstBad ws).isSome
  conclude (reportFindings (advanceSlot t k) ws)

/-- READ_BURST (R104). -/
def execReadBurst (findings : List Finding) (s : State) : Out :=
  if s.power.core = false then .next s
  else
    match slotAtPort s .read with
    | none => .next s
    | some (k, o) => if withinArray s o then .next (readBurstEnd s k o findings) else .fault .beyondCapacity

/-- WRITE_BURST carried out (R56, R105). -/
def writeBurstEnd (s : State) (k : Fin 4) (o : SlotOp) : State :=
  let t := { releasePort s with mem := Memory.writeBytes s.mem o.addr (opData (s.slot k) o) }
  conclude (removeLines (advanceSlot (t.setSlot k (opWritten (s.slot k))) k) (wholeLines o.addr o.len))

/-- WRITE_BURST (R105). -/
def execWriteBurst (s : State) : Out :=
  if s.power.core = false then .next s
  else
    match slotAtPort s .write with
    | none => .next s
    | some (k, o) => if withinArray s o then .next (writeBurstEnd s k o) else .fault .beyondCapacity

/-- The eight bytes a read-modify-write writes: the word as read, with the slot's bytes in place (R106). -/
def mergedWord (word data : List Byte) (off : Nat) : List Byte :=
  word.take off ++ data ++ word.drop (off + data.length)

/-- READ_MODIFY_WRITE of a word found good or corrected (R106). -/
def rmwWritten (s : State) (k : Fin 4) (o : SlotOp) (w : Nat × Finding) : State :=
  let bytes := mergedWord (wordBytes s.mem w) (opData (s.slot k) o) (o.addr % 8)
  let t := { releasePort s with mem := Memory.writeBytes s.mem w.1 bytes }
  conclude (reportFindings (advanceSlot (t.setSlot k (opWritten (s.slot k))) k) [w])

/-- READ_MODIFY_WRITE of a word found uncorrectable: nothing is written and the slot takes the failure (R67, R106). -/
def rmwFailed (s : State) (k : Fin 4) (o : SlotOp) (w : Nat × Finding) : State :=
  let t := (orphanReads (releasePort s) k).setSlot k (opFailed (s.slot k) o)
  conclude (reportFindings (advanceSlot t k) [w])

/-- READ_MODIFY_WRITE (R106). -/
def execReadModifyWrite (finding : Finding) (s : State) : Out :=
  if s.power.core = false then .next s
  else
    match slotAtPort s .rmw with
    | none => .next s
    | some (k, o) =>
      if withinArray s o then
        let w := (o.addr / 8 * 8, finding)
        .next (if finding.condition = .uncorrectable then rmwFailed s k o w else rmwWritten s k o w)
      else .fault .beyondCapacity

end Sys2Proof.Machine
end

