-- ==== Sys2Proof/Machine/LinkEvents.lean ====
section
/-! DEFINITION. Meanings of the link's steps: down, up, reset, the answers to host reads, timeouts and quarantines (R170,
R171, R173, R174). -/

namespace Sys2Proof.Machine

/-- The LIU's part of a link down (R173): the queue is emptied, every read fails and every tag is FREE. -/
def linkLost (s : State) : State := failAllTags { s with link := { s.link with up := false, outbound := [] } }

/-- The State Controller's part of a link down (R155, R158, R173). -/
def linkDownTaken (s : State) : State :=
  if s.atWork then startDrain s .linkDown
  else if s.ctl.op = .draining ∧ s.ctl.phase = .flush then endFlush s .deadline
  else s

/-- LINK_DOWN (R173): the link goes from UP to DOWN. -/
def execLinkDown (s : State) : Out := .next (if s.reached then conclude (linkDownTaken (linkLost s)) else s)

/-- LINK_UP (R173): the link goes from DOWN to UP, and tags are granted to standing requests. -/
def execLinkUp (s : State) : Out :=
  .next
    (if s.power.core = true ∧ s.link.up = false then settleLink { s with link := { s.link with up := true } } else s)

/-- The LIU's part of a link reset (R128, R138, R167, R174): the register window is reset, the queue is emptied, every
read fails and every tag is FREE. -/
def linkCleared (s : State) : State :=
  failAllTags
    { s with
      link := { s.link with up := true, outbound := [], messageEnable := false, vectors := .one }
      adminRing := .zero
      monitor := { s.monitor with beat := 0, last := .none } }

/-- The State Controller's part of a link reset (R155, R174): one taken during a self-refresh exit is kept until the
exit completes. -/
def linkResetTaken (s : State) : State :=
  if s.atWork then startDrain s .linkReset
  else if s.ctl.op = .retained ∧ s.memState = .exiting then { s with ctl := { s.ctl with resetInExit := true } }
  else s

/-- LINK_RESET (R174). -/
def execLinkReset (s : State) : Out :=
  .next (if s.power.core then conclude (linkResetTaken (linkCleared s)) else s)

/-- The answer that completes a read (R170): the tag becomes FREE and the data goes to the holder. -/
def readCompletes (s : State) (t : Fin 16) (bytes : List Byte) : State :=
  conclude (readDone (s.setTag t Tag.none) (s.tag t) bytes)

/-- HOST_READ_DATA (R170, R171): a part of an answer. It is discarded for a tag that is not WAITING. -/
def execHostReadData (tag : Fin 16) (bytes : List Byte) (s : State) : Out :=
  let x := s.tag tag
  let all := x.data ++ bytes
  .next
    (if s.reached = false ∨ x.state ≠ .waiting then s
    else if all.length < x.len then s.setTag tag { x with data := all }
    else readCompletes s tag (all.take x.len))

/-- READ_ERROR_RETURN (R170, R171): the read fails and the tag becomes FREE. -/
def execReadErrorReturn (tag : Fin 16) (s : State) : Out :=
  .next
    (if s.reached = false ∨ (s.tag tag).state ≠ .waiting then s
    else conclude (readFailed (s.setTag tag Tag.none) (s.tag tag)))

/-- A read times out (R170, R171): its tag is QUARANTINED for the timeout the read was issued with, and its holder takes
the failure. -/
def readTimesOut (s : State) (t : Fin 16) : State :=
  let x := s.tag t
  conclude
    (readFailed
      (s.setTag t { x with state := .quarantined, data := [], left := x.timeoutMs * Config.tenthsPerMilli }) x)

/-- LINK_READ_TIMEOUT (R171): its arrival says that the time left to the deadline has passed. -/
def execLinkReadTimeout (tag : Fin 16) (s : State) : Out :=
  .next
    (if s.power.core = false ∨ (s.tag tag).state ≠ .waiting then s
    else readTimesOut (s.elapse (s.tag tag).left) tag)

/-- QUARANTINE_END (R171): the tag becomes FREE and may be granted again. -/
def execQuarantineEnd (tag : Fin 16) (s : State) : Out :=
  .next
    (if s.power.core = false ∨ (s.tag tag).state ≠ .quarantined then s
    else settleLink ((s.elapse (s.tag tag).left).setTag tag Tag.none))

end Sys2Proof.Machine
end

