-- ==== Sys2Proof/Machine/Power.lean ====
section
/-! DEFINITION. Meanings of the power commands: POWER_ON, MEMORY_INITIALISATION, WARM_START, CORE_LOGIC_POWER_DOWN, the
PWR_WARN pin and the supplies (R4, R109, R149, R150, R155, R162). -/

namespace Sys2Proof.Machine

/-- The always-on domain holds a retention: powered, with a valid record and the array in self-refresh (R162). -/
def holdsRetention (s : State) : Bool :=
  s.power.alwaysOn && s.ctl.record.valid && s.memState == .selfRefresh

/-- Every block at its power-on values; the board's strap, pin and supply, the commands that wait and the model's own
records stay. -/
def poweredOn (s : State) : State :=
  { State.reset with
    capacity := s.capacity
    power := { s.power with core := true, alwaysOn := true }
    link := { Link.fresh with delivered := s.link.delivered }
    freeCount := s.freeCount
    pending := s.pending }

/-- Every block at its warm-start values: the always-on state kept, core logic fresh, the state RETAINED (R4, R25, R49,
R78, R94, R99, R108, R112, R118, R123, R128, R129, R138, R149, R162, R168). -/
def warmStarted (s : State) : State :=
  let p := poweredOn s
  { p with
    ctl :=
      { p.ctl with
        op := .retained, retainedPending := s.ctl.retainedPending, deadlineMs := s.ctl.deadlineMs,
        record := s.ctl.record }
    partitions := s.partitions
    port := { p.port with holder := .none }
    memState := .selfRefresh
    mem := s.mem
    refresh := { p.refresh with interval := s.refresh.interval, limit := s.refresh.limit }
    scrub := { p.scrub with period := s.scrub.period, pointer := s.scrub.pointer }
    health := s.health
    monitor :=
      { p.monitor with
        periodCode := s.monitor.periodCode, window := s.monitor.window, grace := s.monitor.grace }
    events := p.events.set .retentionEntered }

/-- POWER_ON (R149, R162): a start of core logic while the always-on domain holds no retention. -/
def execPowerOn (s : State) : Out :=
  .next (if s.power.core = false ∧ holdsRetention s = false then poweredOn s else s)

/-- Memory initialisation succeeds (R109, R113, R120, R150): the array is READY with a debt of 1, and the state becomes
STANDBY. -/
def arrayReady (s : State) : State :=
  { releasePort s with
    memState := .ready
    refresh := s.refresh.start
    ctl := { s.ctl with op := .standby }
    scrub := s.scrub.start }

/-- Memory initialisation fails (R109). -/
def arrayFailed (s : State) : State :=
  { releasePort s with memState := .fault, ctl := { s.ctl with op := .memoryFault } }

/-- MEMORY_INITIALISATION (R109, R150): PWR_WARN found asserted as the state becomes STANDBY settles it at once. -/
def execMemoryInitialisation (success : Bool) (s : State) : Out :=
  if s.power.core = true ∧ s.ctl.op = .init ∧ s.memState = .init then
    if success then
      .next (conclude (if s.power.pwrWarn then settleStandby (arrayReady s) else arrayReady s))
    else .next (arrayFailed s)
  else .next s

/-- WARM_START (R162). -/
def execWarmStart (s : State) : Out :=
  .next (if s.power.core = false ∧ holdsRetention s = true then warmStarted s else s)

/-- CORE_LOGIC_POWER_DOWN (R162): only in RETAINED, with the array in self-refresh, under PWR_WARN and BACKUP. -/
def execCoreLogicPowerDown (s : State) : Out :=
  .next
    (if s.power.core = true ∧ s.ctl.op = .retained ∧ s.memState = .selfRefresh ∧ s.power.pwrWarn = true ∧
        s.power.source = .backup
      then { s with power := { s.power with core := false } } else s)

/-- PWR_WARN_ASSERTED (R155): the pin goes from deasserted to asserted. -/
def execPwrWarnAsserted (s : State) : Out :=
  if s.power.pwrWarn then .next s
  else
    let t := { s with power := { s.power with pwrWarn := true } }
    if s.power.core = false then .next t
    else if s.atWork then .next (conclude (startDrain t .powerWarn))
    else if s.ctl.op = .standby then .next (conclude (settleStandby t))
    else .next t

/-- PWR_WARN_DEASSERTED (R163). -/
def execPwrWarnDeasserted (s : State) : Out := .next { s with power := { s.power with pwrWarn := false } }

/-- MAIN_POWER_LOSS (R162): the controller runs from the backup supply. -/
def execMainPowerLoss (s : State) : Out :=
  .next (if s.power.alwaysOn then { s with power := { s.power with source := .backup } } else s)

/-- MAIN_POWER_RETURN (R162): the power source reads MAIN, and nothing else changes. -/
def execMainPowerReturn (s : State) : Out := .next { s with power := { s.power with source := .main } }

/-- BACKUP_SUPPLY_FAILURE (R162): while the controller runs from the backup supply, both domains lose power. -/
def execBackupSupplyFailure (s : State) : Out :=
  .next
    (if s.power.source = .backup then
      { s with power := { s.power with core := false, alwaysOn := false, source := .main } }
    else s)

end Sys2Proof.Machine
end

