-- ==== Sys2Proof/Machine/Timers.lean ====
section
/-! DEFINITION. Meanings of the expiries of the delay timers, the monitor's timers and the drain deadline timer. The
arrival of an expiry says that the time left on its timer has passed (R89, R144, R145, R158, R159). -/

namespace Sys2Proof.Machine

/-- A delay timer's expiry taken by the Completion Writer (R89). -/
def delayExpired (s : State) (r : Fin 9) : State :=
  if (s.ring r).state = .active then sendVector s r else s.setRing r { s.ring r with timer := none }

/-- DELAY_TIMER_EXPIRY (R89). -/
def execDelayTimerExpiry (ring : Fin 9) (s : State) : Out :=
  if s.power.core = false then .next s
  else
    match (s.ring ring).timer with
    | none => .next s
    | some left => .next (delayExpired (s.elapse left) ring)

/-- The time left on the monitor's period timer (R138, R144). -/
def Monitor.periodLeft (m : Monitor) : Nat :=
  match m.periodCode with
  | some e => periodTenths e - m.elapsed.getD 0
  | none => 0

/-- The period has run out (R144): the monitor is in ALERT with cause LATE. -/
def periodExpired (s : State) : State :=
  { s with
    monitor :=
      { s.monitor with state := .alert, elapsed := none, graceLeft := some s.monitor.graceTenths } }.raiseAlert .late

/-- PERIOD_TIMER_EXPIRY (R144). -/
def execPeriodTimerExpiry (s : State) : Out :=
  .next
    (if s.power.core = true ∧ s.monitor.state = .armed then periodExpired (s.elapse s.monitor.periodLeft) else s)

/-- The grace has run out (R145): the monitor is TRIPPED and the trip starts a drain. -/
def graceExpired (s : State) : State :=
  trigger { s with monitor := { s.monitor with state := .tripped, graceLeft := none } } .monitorTrip

/-- GRACE_TIMER_EXPIRY (R145). -/
def execGraceTimerExpiry (s : State) : Out :=
  .next
    (if s.power.core = true ∧ s.monitor.state = .alert then
      conclude (graceExpired (s.elapse (s.monitor.graceLeft.getD 0)))
    else s)

/-- The drain deadline has passed (R158, R159): it ends FLUSH, or prevents it. -/
def deadlineExpired (s : State) : State :=
  if s.ctl.phase = .flush then endFlush s .deadline
  else { s with ctl := { s.ctl with deadline := none, expired := true } }

/-- DRAIN_DEADLINE_EXPIRY (R158, R159). -/
def execDrainDeadlineExpiry (s : State) : Out :=
  if s.power.core = false ∨ s.ctl.op ≠ .draining then .next s
  else
    match s.ctl.deadline with
    | none => .next s
    | some left => .next (conclude (deadlineExpired (s.elapse left)))

end Sys2Proof.Machine
end

