-- ==== Sys2Proof/Machine/Writer.lean ====
section
/-! DEFINITION. Meanings of the Completion Writer's steps: a completion written, a completion discarded, and a fetched
descriptor converted into an ABORTED completion (R44, R46, R81 to R83, R87, R134, R158). -/

namespace Sys2Proof.Machine

/-- The Admin Processor after its command's completion has been written (R133, R134). -/
def Admin.posted (a : Admin) : Admin :=
  { a with
    handover := Option.none, command := Option.none
    processor := if a.haltAfter then .halted else .idle, haltAfter := false }

/-- The Admin Processor after its completion was discarded because ring 0 is FAULTED (R87, R134). -/
def Admin.discarded (a : Admin) : Admin :=
  { a with handover := Option.none, command := Option.none, processor := .halted, haltAfter := false }

/-- The channel a ring takes its next completion from (R82). -/
def writerChoice (s : State) (r : Fin 9) : Option (Fin 16) :=
  searchAfter (s.ring r).service fun c => (s.chan c).ring == r && !(s.chan c).held.isEmpty

/-- The oldest completion of a channel leaves its held list, or, in FLUSH with an empty held list, its flush queue (R32,
R158). -/
def Channel.popped (x : Channel) : Channel :=
  match x.held with
  | _ :: r => { x with held := r }
  | [] => { x with flush := x.flush.drop 1 }

/-- A channel's oldest completion written to its ring (R81, R82): the service pointer then names the channel. -/
def writeFromChannel (s : State) (r : Fin 9) (c : Fin 16) (f : Completion) : State :=
  let t := s.setChan c (s.chan c).popped
  writeEntry (t.setRing r { t.ring r with service := c }) r f

/-- The admin completion written to ring 0 (R83, R134). -/
def writeFromAdmin (s : State) (f : Completion) : State := writeEntry { s with admin := s.admin.posted } 0 f

/-- The drain's admin completion written to ring 0 (R158): the record no longer names its tag. -/
def writeDrainAdmin (s : State) (f : Completion) : State :=
  writeEntry
    { s with
      admin := s.admin.posted
      ctl := { s.ctl with adminDone := none, working := { s.ctl.working with adminTag := none } } } 0 f

/-- One completion written to a ring in ACTIVE or QUIESCING (R81 to R83); nothing where none waits for it. -/
def writeAtWork (s : State) (r : Fin 9) : State :=
  if r = 0 then
    match s.admin.handover with
    | none => s
    | some f => conclude (writeFromAdmin s f)
  else
    match writerChoice s r with
    | none => s
    | some c =>
      match (s.chan c).held with
      | [] => s
      | f :: _ => conclude (writeFromChannel s r c f)

/-- One completion written to a ring in FLUSH (R158): the one that stands first in the sequence, if it is for this
ring. -/
def writeInFlush (s : State) (r : Fin 9) : State :=
  match flushNext s with
  | none => s
  | some (src, f, r') =>
    if r' = r then
      match src with
      | .admin => conclude (writeDrainAdmin s f)
      | .channel c => conclude (writeFromChannel s r c f)
    else s

/-- COMPLETION_WRITE (R81) into ring `ring`. -/
def execCompletionWrite (ring : Fin 9) (s : State) : Out :=
  .next
    (if s.power.core = false ∨ (s.ring ring).hasRoom = false then s
    else if s.atWork then writeAtWork s ring
    else if s.ctl.op = .draining ∧ s.ctl.phase = .flush then writeInFlush s ring
    else s)

/-- A completion bound for a FAULTED ring discarded in ACTIVE or QUIESCING (R46, R87, R134). -/
def discardAtWork (s : State) (src : CompletionSource) : State :=
  match src with
  | .admin =>
    if s.admin.handover.isSome = true ∧ (s.ring 0).state = .faulted then
      conclude { s with admin := s.admin.discarded }
    else s
  | .channel c =>
    let x := s.chan c
    if x.held ≠ [] ∧ (s.ring x.ring).state = .faulted ∧ (x.state = .deleting ∨ s.ctl.op = .quiescing) then
      conclude (s.setChan c { x with held := x.held.drop 1 })
    else s

/-- One unflushed completion counted (R158, R161). -/
def countUnflushed (s : State) : State :=
  { s with ctl := { s.ctl with working := { s.ctl.working with unflushed := s.ctl.working.unflushed + 1 } } }

/-- The completion that stands first in the FLUSH sequence discarded because its ring is FAULTED (R87, R158). -/
def discardInFlush (s : State) (src : CompletionSource) : State :=
  match flushNext s with
  | none => s
  | some (src', _, r) =>
    if src' = src ∧ (s.ring r).state = .faulted then
      match src with
      | .admin => conclude (countUnflushed { s with ctl := { s.ctl with adminDone := none } })
      | .channel c => conclude (countUnflushed (s.setChan c (s.chan c).popped))
    else s

/-- COMPLETION_DISCARD (R87). -/
def execCompletionDiscard (source : CompletionSource) (s : State) : Out :=
  .next
    (if s.power.core = false then s
    else if s.atWork then discardAtWork s source
    else if s.ctl.op = .draining ∧ s.ctl.phase = .flush then discardInFlush s source
    else s)

/-- The channel's fetched descriptors end ABORTED: it is DELETING, or QUIESCING has found its ring FAULTED (R44, R46). -/
def converts (s : State) (c : Fin 16) : Bool :=
  let x := s.chan c
  s.atWork && x.slot.isNone && x.held.length < 4 &&
    (x.state == .deleting ||
      (s.ctl.op == .quiescing && x.state != .absent && (s.ring x.ring).state == .faulted))

/-- The oldest fetched descriptor ends ABORTED with bytes done 0, and its completion joins the held list (R36, R38,
R44). -/
def Channel.converted (x : Channel) (c : Fin 16) : Channel :=
  match x.queue with
  | [] => x
  | f :: rest =>
    { x.ended .aborted with queue := rest, held := x.held ++ [unstartedCompletion c f .aborted] }

/-- DELETE_CONVERSION (R44). -/
def execDeleteConversion (channel : Fin 16) (s : State) : Out :=
  .next
    (if s.power.core = true ∧ converts s channel = true ∧ (s.chan channel).queue ≠ [] then
      conclude (s.setChan channel ((s.chan channel).converted channel))
    else s)

end Sys2Proof.Machine
end

