-- ==== Sys2Proof/Machine/Dispatch.lean ====
section
/-! DEFINITION. The dispatch of commands to their meanings: one arm for each row of spec/opcode_table.json. -/

namespace Sys2Proof.Machine

/-- The effect of a command on everything but the queue of commands that wait. -/
def exec (i : Instr) (s : State) : Host.Outcome State Fault Refusal :=
  match i with
  | .powerOn => Sys2Proof.Machine.execPowerOn s
  | .memoryInitialisation success => Sys2Proof.Machine.execMemoryInitialisation success s
  | .warmStart => Sys2Proof.Machine.execWarmStart s
  | .coreLogicPowerDown => Sys2Proof.Machine.execCoreLogicPowerDown s
  | .pwrWarnAsserted => Sys2Proof.Machine.execPwrWarnAsserted s
  | .linkDown => Sys2Proof.Machine.execLinkDown s
  | .linkUp => Sys2Proof.Machine.execLinkUp s
  | .linkReset => Sys2Proof.Machine.execLinkReset s
  | .messageEnable enabled granted => Sys2Proof.Machine.execMessageEnable enabled granted s
  | .enable => Sys2Proof.Machine.execEnable s
  | .quiesce => Sys2Proof.Machine.execQuiesce s
  | .functionReset => Sys2Proof.Machine.execFunctionReset s
  | .adminRingWrite field part value => Sys2Proof.Machine.execAdminRingWrite field part value s
  | .notifySqTail ring index => Sys2Proof.Machine.execNotifySqTail ring index s
  | .notifyCqHead ring index => Sys2Proof.Machine.execNotifyCqHead ring index s
  | .heartbeatWrite value => Sys2Proof.Machine.execHeartbeatWrite value s
  | .eventsWrite value => Sys2Proof.Machine.execEventsWrite value s
  | .registerWriteIgnored offset width value => Sys2Proof.Machine.execRegisterWriteIgnored offset width value s
  | .definePartition => Sys2Proof.Machine.execDefinePartition s
  | .freezePartition => Sys2Proof.Machine.execFreezePartition s
  | .releasePartition => Sys2Proof.Machine.execReleasePartition s
  | .clearTorn => Sys2Proof.Machine.execClearTorn s
  | .getPartitions => Sys2Proof.Machine.execGetPartitions s
  | .createChannel => Sys2Proof.Machine.execCreateChannel s
  | .deleteChannel => Sys2Proof.Machine.execDeleteChannel s
  | .pauseChannel => Sys2Proof.Machine.execPauseChannel s
  | .resumeChannel => Sys2Proof.Machine.execResumeChannel s
  | .createCq => Sys2Proof.Machine.execCreateCq s
  | .deleteCq => Sys2Proof.Machine.execDeleteCq s
  | .setRefresh => Sys2Proof.Machine.execSetRefresh s
  | .setScrub => Sys2Proof.Machine.execSetScrub s
  | .getHealth => Sys2Proof.Machine.execGetHealth s
  | .clearErrors => Sys2Proof.Machine.execClearErrors s
  | .setMonitor => Sys2Proof.Machine.execSetMonitor s
  | .setLinkTimeout => Sys2Proof.Machine.execSetLinkTimeout s
  | .setDrain => Sys2Proof.Machine.execSetDrain s
  | .enterRetention => Sys2Proof.Machine.execEnterRetention s
  | .getRetentionRecord => Sys2Proof.Machine.execGetRetentionRecord s
  | .claimRetained => Sys2Proof.Machine.execClaimRetained s
  | .discardRetained => Sys2Proof.Machine.execDiscardRetained s
  | .unknownCommand => Sys2Proof.Machine.execUnknownCommand s
  | .slotSchedulerChoice => Sys2Proof.Machine.execSlotSchedulerChoice s
  | .presentation slot => Sys2Proof.Machine.execPresentation slot s
  | .readBurst findings => Sys2Proof.Machine.execReadBurst findings s
  | .writeBurst => Sys2Proof.Machine.execWriteBurst s
  | .readModifyWrite finding => Sys2Proof.Machine.execReadModifyWrite finding s
  | .refresh => Sys2Proof.Machine.execRefresh s
  | .scrubLine findings => Sys2Proof.Machine.execScrubLine findings s
  | .selfRefreshEntry => Sys2Proof.Machine.execSelfRefreshEntry s
  | .selfRefreshExit => Sys2Proof.Machine.execSelfRefreshExit s
  | .hostReadData tag bytes => Sys2Proof.Machine.execHostReadData tag bytes s
  | .readErrorReturn tag => Sys2Proof.Machine.execReadErrorReturn tag s
  | .linkReadTimeout tag => Sys2Proof.Machine.execLinkReadTimeout tag s
  | .quarantineEnd tag => Sys2Proof.Machine.execQuarantineEnd tag s
  | .intervalExpiry => Sys2Proof.Machine.execIntervalExpiry s
  | .scrubTick => Sys2Proof.Machine.execScrubTick s
  | .delayTimerExpiry ring => Sys2Proof.Machine.execDelayTimerExpiry ring s
  | .periodTimerExpiry => Sys2Proof.Machine.execPeriodTimerExpiry s
  | .graceTimerExpiry => Sys2Proof.Machine.execGraceTimerExpiry s
  | .drainDeadlineExpiry => Sys2Proof.Machine.execDrainDeadlineExpiry s
  | .completionWrite ring => Sys2Proof.Machine.execCompletionWrite ring s
  | .completionDiscard source => Sys2Proof.Machine.execCompletionDiscard source s
  | .deleteConversion channel => Sys2Proof.Machine.execDeleteConversion channel s
  | .pwrWarnDeasserted => Sys2Proof.Machine.execPwrWarnDeasserted s
  | .mainPowerLoss => Sys2Proof.Machine.execMainPowerLoss s
  | .mainPowerReturn => Sys2Proof.Machine.execMainPowerReturn s
  | .backupSupplyFailure => Sys2Proof.Machine.execBackupSupplyFailure s

end Sys2Proof.Machine
end

