-- ==== Sys2Proof/Machine/Registers.lean ====
section
/-! DEFINITION. What a read of the register window returns (R147, R166, R175, R176). A read changes nothing, so it is no
command; these are the values software sees. -/

namespace Sys2Proof.Machine

/-- Code of the capacity in IDENT (R176). -/
def Capacity.code : Capacity → Nat
  | .gib1 => 0
  | .gib2 => 1
  | .gib4 => 2
  | .gib8 => 3

/-- Code of the operating state in STATE (R176). -/
def OpState.code : OpState → Nat
  | .init => 0
  | .standby => 1
  | .active => 2
  | .quiescing => 3
  | .draining => 4
  | .retained => 5
  | .memoryFault => 6

/-- Code of the drain phase in STATE (R176). -/
def DrainPhase.code : DrainPhase → Nat
  | .none => 0
  | .stop => 1
  | .flush => 2
  | .settle => 3

/-- Code of the monitor state in STATE (R176). -/
def MonitorState.code : MonitorState → Nat
  | .disarmed => 0
  | .armed => 1
  | .alert => 2
  | .tripped => 3

/-- Code of the memory state in STATE (R176). -/
def MemState.code : MemState → Nat
  | .init => 0
  | .ready => 1
  | .selfRefresh => 2
  | .exiting => 3
  | .fault => 4

/-- Code of the last result in HEARTBEAT (R176). -/
def LastResult.code : LastResult → Nat
  | .none => 0
  | .accepted => 1
  | .early => 2
  | .wrong => 3
  | .ignored => 4

/-- Code of the monitor alert detail in EVENTS (R176). -/
def AlertDetail.code : AlertDetail → Nat
  | .none => 0
  | .early => 1
  | .late => 2

/-- IDENT (R176); the revision is a free value. -/
def readIdent (s : State) : BitVec 64 :=
  BitVec.ofNat 64
    (0x48 + 2 ^ 8 * Config.revision.toNat + 2 ^ 16 * s.capacity.code + 2 ^ 24 * 4 + 2 ^ 32 * 16 + 2 ^ 40 * 8)

/-- STATE (R148, R176). -/
def readState (s : State) : BitVec 64 :=
  BitVec.ofNat 64
    (s.ctl.op.code + 2 ^ 4 * s.ctl.phase.code + 2 ^ 6 * s.ctl.retainedPending.toNat + 2 ^ 8 * s.monitor.state.code +
      2 ^ 12 * s.memState.code + 2 ^ 15 * (if s.power.source = .backup then 1 else 0) +
      2 ^ 16 * s.power.pwrWarn.toNat)

/-- HEARTBEAT as read (R147, R176). -/
def readHeartbeat (s : State) : Nat := s.monitor.beat.toNat + 2 ^ 8 * s.monitor.last.code

/-- EVENTS as read (R95, R176). -/
def readEvents (s : State) : Nat := s.events.causes.toNat + 2 ^ 16 * s.events.detail.code

/-- The eight bytes of the window at offset `8 i` (R175); CONTROL and NOTIFY read 0. -/
def windowWord (s : State) : Nat → BitVec 64
  | 0 => readIdent s
  | 1 => readState s
  | 3 => BitVec.ofNat 64 (readHeartbeat s + 2 ^ 32 * readEvents s)
  | 4 => s.adminRing.submissionBase
  | 5 => s.adminRing.completionBase
  | 6 => s.adminRing.size.setWidth 64
  | _ => 0

/-- A read of the window at a byte offset, of a width in bytes (R175): an access of another width, or one that would
span two 4-byte registers, reads 0. So does a misaligned access of 4 or 8 bytes, of which R175 says only that it is not
among those taken: DESIGN CHOICE, log entry 27. -/
def readWindow (s : State) (offset width : Nat) : BitVec 64 :=
  if width = 8 ∧ offset % 8 = 0 ∧ offset ≠ 0x10 ∧ offset ≠ 0x18 then windowWord s (offset / 8)
  else if width = 4 ∧ offset % 8 = 0 then (windowWord s (offset / 8)).extractLsb' 0 32 |>.setWidth 64
  else if width = 4 ∧ offset % 8 = 4 then (windowWord s (offset / 8)).extractLsb' 32 32 |>.setWidth 64
  else 0

end Sys2Proof.Machine
end

