-- ==== Sys2Proof/Safety.lean ====
section
/-! DEFINITION. What counts as a safe state, and the words that claims use: the laws of the controller as predicates of a
state, a state seen without what grants of tags and of the port change, and the ways a command of the admin ring ends. -/

namespace Sys2Proof.Machine

/-! ### A state without what grants change -/

/-- The item is a host-memory read. -/
def Outbound.isRead : Outbound → Bool
  | .read _ _ _ => true
  | .write _ _ | .message _ => false

/-- The link without what grants of link tags change (R169): tags, requests, pointers and the reads handed to the
outbound queue. The writes and messages handed over stay, in order. -/
def Link.besideTags (l : Link) : Link :=
  { l with
    tags := Vector.replicate 16 Tag.none, slotRequests := Vector.replicate 4 false, slotPointer := 0,
    channelPointer := 0, outbound := l.outbound.filter fun o => !o.isRead }

/-- A fetch record without what its conditions and a grant change (R28, R131): only an orphaned read is told apart. -/
def FetchRecord.besideTags : FetchRecord → FetchRecord
  | .orphaned n => .orphaned n
  | .empty | .requesting | .inFlight _ => .empty

/-- The state without what the placing of tag requests and the grants of tags change (R28, R57, R131, R169): of a slot,
its outstanding reads and its next piece. -/
def State.besideTags (s : State) : State :=
  { s with
    fetch := tabulate 16 fun c => (s.fetchOf c).besideTags
    adminFetch := s.adminFetch.besideTags
    slots := tabulate 4 fun k => { s.slot k with reads := 0, nextPiece := 0 }
    link := s.link.besideTags }

/-- The state without what grants of tags and a grant of the port change (R100, R101, R169). A grant to self-refresh
entry is made in DRAINING alone; there it also ends the request and stops the interval timer (R110, R113). -/
def State.besideGrants (s : State) : State :=
  { s with
    fetch := tabulate 16 fun c => (s.fetchOf c).besideTags
    adminFetch := s.adminFetch.besideTags
    slots := tabulate 4 fun k => { s.slot k with reads := 0, nextPiece := 0, port := .none }
    link := s.link.besideTags
    refresh := if s.ctl.op = .draining then s.refresh.stop else s.refresh
    port :=
      { holder := .none, urgentPointer := 0, bulkPointer := 0,
        entryRequest := if s.ctl.op = .draining then false else s.port.entryRequest } }

/-! ### Commands of the admin ring -/

/-- The Admin Processor takes the oldest fetched command, which has this code (R134). -/
def Takes (s : State) (f : Fetched) (rest : List Fetched) (code : Nat) : Prop :=
  s.power.core = true ∧ s.ctl.op = .active ∧ s.admin.processor = .idle ∧ s.admin.queue = f :: rest ∧
    commandCode f.entry = code

/-- The Admin Processor with a taken command whose completion has been handed over (R83, R134, R135). -/
def Admin.completing (a : Admin) (f : Fetched) (rest : List Fetched) (st : Status) (result : Word32) : Admin :=
  { a with
    queue := rest, processor := .executing
    command := some { entry := f.entry, headAfter := f.headAfter, wait := .none }
    handover :=
      some
        { tag := recordTag f.entry, bytesDone := 0, result := result, channel := 0, status := st,
          head := f.headAfter, notify := false } }

/-- The Admin Processor with a taken command that waits (R136). -/
def Admin.waiting (a : Admin) (f : Fetched) (rest : List Fetched) (w : AdminWait) : Admin :=
  { a with
    queue := rest, processor := .executing
    command := some { entry := f.entry, headAfter := f.headAfter, wait := w } }

/-- The command answers a next state that is `x`, with the command's completion handed over, but for what grants of tags
change. With `x` the state before, nothing else has changed: that is the frame. -/
def Completes (i : Instr) (s : State) (f : Fetched) (rest : List Fetched) (st : Status) (result : Word32)
    (x : State) : Prop :=
  ∃ t, exec i s = .next t ∧ t.besideTags = { x with admin := s.admin.completing f rest st result }.besideTags

/-- Self-refresh entry is requested in DRAINING alone (R110, R160): what every claim about a happening that ends with a
grant of the port rests on. -/
def State.EntryLaw (s : State) : Prop := s.port.entryRequest = true → s.ctl.op = .draining

/-- The command answers a next state that is `x` but for what grants of tags and of the port change. -/
def Reaches (i : Instr) (s x : State) : Prop := ∃ t, exec i s = .next t ∧ t.besideGrants = x.besideGrants

/-- The command answers a next state that is `x`, with the passages that its effect completes carried out in the same
happening (a deletion, a quiesce, STOP or FLUSH that ends, R44, R46, R153, R157, R158), but for what grants of tags and of
the port change. -/
def Concludes (i : Instr) (s x : State) : Prop := Reaches i s (settlePhases x)

/-! ### Where a command stores, and where it would reach past the array -/

/-- The command stores to the byte at absolute buffer address `a` (R105 to R107): the bytes of the slot's write burst, the
one ECC word of its read-modify-write, or the line at the scrub pointer. -/
def State.storesTo (s : State) (a : Nat) : Instr → Prop
  | .writeBurst =>
    ∃ k o, slotAtPort s .write = some (k, o) ∧ o.addr ≤ a ∧ a < o.addr + (opData (s.slot k) o).length
  | .readModifyWrite f =>
    ∃ k o, slotAtPort s .rmw = some (k, o) ∧ f.condition ≠ .uncorrectable ∧ o.addr / 8 * 8 ≤ a ∧
      a < o.addr / 8 * 8 +
        (mergedWord (wordBytes s.mem (o.addr / 8 * 8, f)) (opData (s.slot k) o) (o.addr % 8)).length
  | .scrubLine _ =>
    s.port.holder = .scrubUnit ∧ s.scrub.pointer ≤ a ∧
      a < s.scrub.pointer + 8 * (wordAddresses s.scrub.pointer 64).length
  | _ => False

/-- The command's port operation would reach past the capacity of buffer memory (R1, R97). -/
def State.pastCapacity (s : State) : Instr → Prop
  | .readBurst _ => s.power.core = true ∧ ∃ k o, slotAtPort s .read = some (k, o) ∧ withinArray s o = false
  | .writeBurst => s.power.core = true ∧ ∃ k o, slotAtPort s .write = some (k, o) ∧ withinArray s o = false
  | .readModifyWrite _ => s.power.core = true ∧ ∃ k o, slotAtPort s .rmw = some (k, o) ∧ withinArray s o = false
  | .scrubLine _ =>
    s.power.core = true ∧ s.port.holder = .scrubUnit ∧ s.capacity.bytes < s.scrub.pointer + 64
  | _ => False

/-! ### The start of a drain -/

/-- A drain with this reason has begun between the two states (R155, R156): the working record is begun, the blocks that
move work are stopped, and buffer memory and the retention record are as they were. -/
def DrainBegun (s t : State) (reason : DrainReason) (timestamp : Word32) : Prop :=
  t.ctl.op = .draining ∧ t.ctl.working.reason = reason ∧ t.ctl.working.timestamp = timestamp ∧
    (∀ c, (t.ctl.working.channels.get c).existed = ((s.chan c).state != .absent) ∧
      ((s.chan c).state ≠ .absent → (t.ctl.working.channels.get c).head = (s.chan c).head)) ∧
    (t.ctl.phase = .settle ∨ t.ctl.deadline = some (s.ctl.deadlineMs * Config.tenthsPerMilli)) ∧
    t.scrub.timer = none ∧ t.scrub.request = false ∧ t.monitor.state ≠ .armed ∧ t.monitor.state ≠ .alert ∧
    (∀ k, (t.slot k).state = .idle ∨
      ((t.slot k).state = .ending ∧ ((t.slot k).stop = .terminated ∨ (t.slot k).stop = .silent))) ∧
    (∀ c, t.fetchOf c ≠ .requesting) ∧ t.adminFetch ≠ .requesting ∧
    t.mem = s.mem ∧ t.ctl.record = s.ctl.record ∧ t.ctl.retainedPending = s.ctl.retainedPending

/-! ### Laws of the controller -/

/-- Buffer memory is in its canonical form. -/
def State.MemoryLaw (s : State) : Prop := Memory.wf s.mem = true

/-- The error address list holds at most eight lines, each a multiple of 64 and none of them twice, and every counter
lies in its range (R123, R124). -/
def State.HealthLaw (s : State) : Prop :=
  s.health.lines.length ≤ 8 ∧ s.health.lines.Nodup ∧ (∀ a ∈ s.health.lines, a % 64 = 0) ∧
    s.health.correctable ≤ 4294967295 ∧ s.health.uncorrectable ≤ 4294967295 ∧ s.health.overrun ≤ 65535 ∧
    s.health.deferral ≤ 65535 ∧ s.health.overflow ≤ 255

/-- The unconsumed entries of a completion ring never exceed its size (R81). -/
def State.RingLaw (s : State) : Prop := ∀ r, (s.ring r).unconsumed ≤ (s.ring r).size

/-- The refresh debt never exceeds the limit in force plus one (R114). What keeps it: a pending limit lies below the debt
less one (R116), the debt is 0 and the timer stopped while the array is not READY or self-refresh entry is in progress
(R113), and a self-refresh exit holds the port only in EXITING (R108). -/
def State.RefreshLaw (s : State) : Prop :=
  s.refresh.debt ≤ s.refresh.limit + 1 ∧
    (∀ p, s.refresh.pendingLimit = some p → p + 1 < s.refresh.debt) ∧
    (s.memState ≠ .ready ∨ s.port.holder = .selfRefreshEntry → s.refresh.debt = 0 ∧ s.refresh.timer = none) ∧
    (s.port.holder = .selfRefreshExit → s.memState = .exiting)

/-- No two partitions that are not FREE share any byte, each lies inside the capacity, and a FREE entry has no range and
no reference (R1, R6, R13, R18). -/
def State.PartitionLaw (s : State) : Prop :=
  (∀ i j, i ≠ j → (s.part i).state ≠ .free → (s.part j).state ≠ .free →
      (s.part i).base + (s.part i).length ≤ (s.part j).base ∨ (s.part j).base + (s.part j).length ≤ (s.part i).base) ∧
    (∀ i, (s.part i).state ≠ .free →
      1 ≤ (s.part i).length ∧ (s.part i).base + (s.part i).length ≤ s.capacity.units) ∧
    ∀ i, (s.part i).state = .free →
      (s.part i).base = 0 ∧ (s.part i).length = 0 ∧ (s.part i).refs = 0 ∧ (s.part i).writeRefs = 0

/-- The phase of a drain in which channels and rings have gone. -/
def State.settling (s : State) : Prop := s.ctl.op = .draining ∧ s.ctl.phase = .settle

/-- In RETAINED no channel and no completion ring exists and every execution slot is IDLE (R160). What keeps it: they are
deleted before self-refresh entry is requested, the entry is granted only when every slot is IDLE and ends its request,
and core logic loses power with the always-on domain or in RETAINED alone (R162). -/
def State.RetainedLaw (s : State) : Prop :=
  (s.settling ∨ s.ctl.op = .retained →
      (∀ c, (s.chan c).state = .absent) ∧ ∀ r, (s.ring r).state = .absent) ∧
    (s.ctl.op = .retained → ∀ k, (s.slot k).state = .idle) ∧
    (s.port.entryRequest = true → s.settling) ∧
    (s.port.holder = .selfRefreshEntry →
      s.settling ∧ s.port.entryRequest = false ∧ ∀ k, (s.slot k).state = .idle) ∧
    (s.port.holder = .selfRefreshExit → s.ctl.op = .retained) ∧
    (s.power.core = false → s.power.alwaysOn = false ∨ s.ctl.op = .retained)

/-- The monitor is ARMED or ALERT only while the operating state is ACTIVE, and its timers run exactly as its state says
(R138, R139, R146). -/
def State.MonitorLaw (s : State) : Prop :=
  (s.monitor.state = .armed ∨ s.monitor.state = .alert → s.ctl.op = .active) ∧
    (s.monitor.elapsed.isSome = true ↔ s.monitor.state = .armed) ∧
    (s.monitor.graceLeft.isSome = true ↔ s.monitor.state = .alert) ∧
    (s.monitor.state = .armed ∨ s.monitor.state = .alert → s.monitor.periodCode.isSome = true)

/-- Slot `k` holds a descriptor that has not been abandoned by SILENT, which leaves a slot in ENDING (R75). -/
def State.holdsWork (s : State) (k : Fin 4) : Prop :=
  (s.slot k).state ≠ .idle ∧ ((s.slot k).state = .ending → (s.slot k).stop ≠ .silent)

/-- A fetched queue holds at most eight descriptors, the room a fetch has reserved counted, a held completion list at
most four completions, and a channel at most one descriptor in a slot (R32). What keeps it: a slot's descriptor is the
one its channel is bound to (R35, R69), a slot is in CHECK or RUN only in ACTIVE and QUIESCING and in ENDING while STOP
lasts (R72, R157), a bound channel has room for its completion (R33), and an ABSENT context holds nothing and no read
(R23, R31). -/
def State.ChannelLaw (s : State) : Prop :=
  (∀ c, (s.chan c).queue.length ≤ 8 ∧ (s.chan c).held.length ≤ 4 ∧
      (∀ n, s.fetchOf c = .inFlight n → (s.chan c).queue.length + n ≤ 8) ∧
      ((s.chan c).slot ≠ none → (s.chan c).held.length ≤ 3) ∧
      ((s.chan c).state = .absent → s.chan c = Channel.none ∧ ∀ n, s.fetchOf c ≠ .inFlight n)) ∧
    ∀ k, s.holdsWork k →
      (s.chan (s.slot k).chan).slot = some k ∧
        (s.atWork = true ∨ (s.ctl.op = .draining ∧ s.ctl.phase = .stop ∧ (s.slot k).state = .ending))

/-- Buffer references that slot `k` holds on entry `i` (R6). -/
def State.refsOf (s : State) (i : Fin 16) (k : Fin 4) : Nat :=
  let sl := s.slot k
  (if sl.refs ≠ .none ∧ partitionIndex (refA sl.entry).partition = some i then 1 else 0) +
    if sl.refs = .ab ∧ partitionIndex (refB sl.entry).partition = some i then 1 else 0

/-- Buffer references of write-kind use that slot `k` holds on entry `i` (R6). -/
def State.writeRefsOf (s : State) (i : Fin 16) (k : Fin 4) : Nat :=
  let sl := s.slot k
  if sl.refs ≠ .none ∧ partitionIndex (refA sl.entry).partition = some i ∧
      ((descKind sl.entry).map Kind.writes).getD false = true then 1
  else 0

/-- A partition's reference counts equal the numbers of buffer references that descriptors in slots hold (R6). What keeps
it: a slot holds references only in RUN and ENDING (R6, R48), and no slot is at work while retained contents are pending
(R22). -/
def State.ReferenceLaw (s : State) : Prop :=
  (∀ i, (s.part i).refs = (allSlots.map (s.refsOf i)).sum ∧ (s.part i).writeRefs = (allSlots.map (s.writeRefsOf i)).sum) ∧
    (∀ k, (s.slot k).state = .idle ∨ (s.slot k).state = .check → (s.slot k).refs = .none) ∧
    (s.ctl.retainedPending = true →
      (∀ c, (s.chan c).state = .absent) ∧ ∀ k, (s.slot k).state = .idle)

end Sys2Proof.Machine
end

