-- ==== Sys2Proof/Certificates/Slice0/Obligations.lean ====
section
/-! DEFINITION. The statements about the controller that are to be proved: how commands are taken, the laws that every step
keeps, rules of the whole machine, the shared operations, and, for every command, the state it leaves. -/

open Sys2Proof Sys2Proof.Machine

/-! ### Commands and the queue -/

/-- A step carries out the command at the front of the queue with the queue's rest. On an empty queue, which is the
model's choice (log entry 6), one µs passes and the link carries what waits, while core logic is powered. -/
def Obligations.StepRunsFrontCommand : Prop :=
  (∀ (c : Instr) (rest : List Instr) (s : State), s.pending = c :: rest →
      step s = exec c { s with pending := rest }) ∧
    (∀ s : State, s.pending = [] → s.power.core = true →
      step s = .next { s.elapse 10 with link := (s.elapse 10).link.sendAll }) ∧
    ∀ s : State, s.pending = [] → s.power.core = false → step s = .next s

/-- Every command answers a next state, but where its port operation would reach past the capacity of buffer memory
(R1, R97); the stop there is the model's reading (log entry 11). It leaves the queue of commands, the capacity strap (R1)
and what the host has received. -/
def Obligations.EveryCommandAnswers : Prop :=
  ∀ (i : Instr) (s : State),
    (s.pastCapacity i → exec i s = .fault .beyondCapacity) ∧
      (¬s.pastCapacity i →
        ∃ t, exec i s = .next t ∧ t.pending = s.pending ∧ t.capacity = s.capacity ∧
          t.link.delivered = s.link.delivered)

/-! ### Reset -/

/-- The values the spec gives at power-on (R4, R25, R49, R78, R94, R99, R108, R112, R118, R123, R128, R129, R138, R149,
R167, R168): registers and counts, every timer stopped, no request and no work held, the port occupied by memory
initialisation, the link DOWN. -/
def Obligations.ResetValues : Prop :=
  let r := State.reset
  (r.ctl.op = .init ∧ r.ctl.phase = .none ∧ r.ctl.retainedPending = false ∧ r.ctl.deadlineMs = 50 ∧
      r.ctl.deadline = none ∧ r.ctl.record.valid = false ∧ r.ctl.record.sequence = 0) ∧
    (∀ i, r.part i = Partition.freed 0) ∧
    (∀ c, (r.chan c).state = .absent ∧ r.fetchOf c = .empty) ∧
    (r.sched.urgent = { pointer := 15, credit := 0 } ∧ r.sched.bulk = { pointer := 15, credit := 0 }) ∧
    (∀ k, (r.slot k).state = .idle ∧ (r.slot k).stop = .none ∧ (r.slot k).port = .none) ∧
    (∀ q, (r.ring q).state = .absent ∧ (r.ring q).timer = none) ∧
    (r.adminRing.submissionBase = 0 ∧ r.adminRing.completionBase = 0 ∧ r.adminRing.size = 0) ∧
    (r.admin.processor = .idle ∧ r.admin.command = none ∧ r.admin.queue = [] ∧ r.admin.head = 0 ∧ r.admin.tail = 0 ∧
      r.adminFetch = .empty) ∧
    (r.port.holder = .arrayStart ∧ r.port.entryRequest = false ∧ r.port.urgentPointer = 3 ∧ r.port.bulkPointer = 3 ∧
      r.memState = .init) ∧
    (r.refresh.interval = 78 ∧ r.refresh.timer = none ∧ r.refresh.debt = 0 ∧ r.refresh.limit = 4 ∧
      r.refresh.pendingInterval = none ∧ r.refresh.pendingLimit = none) ∧
    (r.scrub.period = 0 ∧ r.scrub.timer = none ∧ r.scrub.pointer = 0 ∧ r.scrub.request = false) ∧
    (r.health.correctable = 0 ∧ r.health.uncorrectable = 0 ∧ r.health.overrun = 0 ∧ r.health.deferral = 0 ∧
      r.health.overflow = 0 ∧ r.health.lines = []) ∧
    (r.monitor.state = .disarmed ∧ r.monitor.periodCode = none ∧ r.monitor.window = 0 ∧ r.monitor.grace = 100 ∧
      r.monitor.elapsed = none ∧ r.monitor.graceLeft = none ∧ r.monitor.beat = 0 ∧ r.monitor.last = .none) ∧
    (r.events.causes = 0 ∧ r.events.detail = .none) ∧
    (r.link.up = false ∧ (∀ g, (r.tag g).state = .free) ∧ (∀ k, r.link.slotRequests.get k = false) ∧
      r.link.slotPointer = 3 ∧ r.link.channelPointer = 15 ∧ r.link.timeoutMs = 10 ∧ r.link.outbound = [] ∧
      r.link.messageEnable = false ∧ r.link.vectors = .one) ∧
    r.time.micros = 0

/-- Every law that a step keeps holds right after power-on. -/
def Obligations.LawsHoldAtReset : Prop :=
  State.reset.MemoryLaw ∧ State.reset.HealthLaw ∧ State.reset.RingLaw ∧ State.reset.RefreshLaw ∧
    State.reset.PartitionLaw ∧ State.reset.RetainedLaw ∧ State.reset.MonitorLaw ∧ State.reset.ChannelLaw ∧
    State.reset.ReferenceLaw ∧ State.reset.EntryLaw

/-! ### Laws that every step keeps -/

/-- Every step keeps buffer memory in its canonical form, which is the model's (log entry 5):
addresses strictly rising, no zero byte listed. -/
def Obligations.MemoryLawKept : Prop := ∀ s t : State, s.MemoryLaw → step s = .next t → t.MemoryLaw

/-- Every step keeps the law of the error address list, at most eight lines and never the same line twice (R124), and
the ranges of the five counters (R123). -/
def Obligations.HealthLawKept : Prop := ∀ s t : State, s.HealthLaw → step s = .next t → t.HealthLaw

/-- Every step keeps the law that the unconsumed entries of a completion ring never exceed its size (R81). -/
def Obligations.RingLawKept : Prop := ∀ s t : State, s.RingLaw → step s = .next t → t.RingLaw

/-- Every step keeps the law that the refresh debt never exceeds the limit in force plus one (R114), with what keeps
it. -/
def Obligations.RefreshLawKept : Prop := ∀ s t : State, s.RefreshLaw → step s = .next t → t.RefreshLaw

/-- Every step keeps the law that no two partitions that are not FREE share any byte (R13), each of them inside the
capacity (R12). -/
def Obligations.PartitionLawKept : Prop := ∀ s t : State, s.PartitionLaw → step s = .next t → t.PartitionLaw

/-- Every step keeps the law that in RETAINED no channel or completion ring exists and every slot is IDLE (R160), with
what keeps it. The law holds the entry law on which statements about grants rest. -/
def Obligations.RetainedLawKept : Prop :=
  (∀ s t : State, s.RetainedLaw → step s = .next t → t.RetainedLaw) ∧ ∀ s : State, s.RetainedLaw → s.EntryLaw

/-- Every step keeps the law that the monitor is ARMED or ALERT only in ACTIVE (R139). The retained law is a premise: it
says that self-refresh entry is in progress in DRAINING alone. -/
def Obligations.MonitorLawKept : Prop :=
  ∀ s t : State, s.RetainedLaw → s.MonitorLaw → step s = .next t → t.MonitorLaw

/-- Every step keeps the law that a channel has at most one descriptor in a slot, at most four held completions and at
most eight fetched descriptors (R32), with what keeps it. -/
def Obligations.ChannelLawKept : Prop :=
  ∀ s t : State, s.RetainedLaw → s.ChannelLaw → step s = .next t → t.ChannelLaw

/-- Every step keeps the law that a partition's reference count is the number of buffer references that descriptors in
slots hold (R6), with what keeps it. -/
def Obligations.ReferenceLawKept : Prop :=
  ∀ s t : State, s.RetainedLaw → s.ReferenceLaw → step s = .next t → t.ReferenceLaw

/-! ### Rules of the whole machine -/

/-- A durable mark changes only where a MARK is carried out on a clean channel, and takes that MARK's value (R37); or
with its context, by a creation, which makes it 0, or by the end of the channel. -/
def Obligations.MarkChangesOnlyByMark : Prop :=
  ∀ (i : Instr) (s t : State) (c : Fin 16), exec i s = .next t →
    (t.chan c).mark = (s.chan c).mark ∨ t.chan c = Channel.none ∨
      (i = .createChannel ∧ (s.chan c).state = .absent ∧ (t.chan c).mark = 0) ∨
      (i = .slotSchedulerChoice ∧ (s.chan c).clean = true ∧
        ∃ f rest, (s.chan c).queue = f :: rest ∧ descKind f.entry = some .mark ∧
          (t.chan c).mark = wordAt f.entry 40)

/-- The generation of a partition entry advances by one, modulo 256, where DEFINE_PARTITION makes the entry OPEN, is 0
after power-on, and changes by nothing else (R3). -/
def Obligations.GenerationAdvancesOnlyByDefine : Prop :=
  ∀ (i : Instr) (s t : State) (j : Fin 16), exec i s = .next t →
    (t.part j).generation = (s.part j).generation ∨
      (i = .powerOn ∧ (t.part j).generation = 0) ∨
      (i = .definePartition ∧ (s.part j).state = .free ∧ (t.part j).state = .opened ∧
        (t.part j).generation = (s.part j).generation + 1)

/-- The retention record is replaced whole at the end of self-refresh entry, with the sequence number one higher, valid
and not claimed; the recovery commands change its claimed flag alone; power-on makes it invalid; nothing else changes it
(R161, R164). -/
def Obligations.RecordReplacedOnlyAtEntry : Prop :=
  ∀ (i : Instr) (s t : State), exec i s = .next t →
    t.ctl.record = s.ctl.record ∨ (i = .powerOn ∧ t.ctl.record.valid = false) ∨
      ((i = .claimRetained ∨ i = .discardRetained) ∧ t.ctl.record = { s.ctl.record with claimed := true }) ∨
      (i = .selfRefreshEntry ∧
        t.ctl.record =
          { s.ctl.working with
            valid := true, sequence := s.ctl.record.sequence + 1, claimed := false,
            partitions := tabulate 16 fun j => { s.part j with refs := 0, writeRefs := 0 },
            overrun := s.health.overrun, lines := s.health.lines })

/-- No byte of buffer memory changes but the bytes that a write burst, a read-modify-write or a scrub line stores to
(R55, R105 to R107); only power-on, which clears the list, is left aside. -/
def Obligations.MemoryWrittenOnlyByPort : Prop :=
  ∀ (i : Instr) (s t : State) (a : Nat), s.MemoryLaw → i ≠ .powerOn → exec i s = .next t → ¬s.storesTo a i →
    Memory.read t.mem a = Memory.read s.mem a

/-- The correctable, uncorrectable, refresh overrun and scrub deferral counts never fall but at power-on, and the
overflow count falls only by CLEAR_ERRORS (R123, R126). -/
def Obligations.CountersKeptUntilPowerOn : Prop :=
  ∀ (i : Instr) (s t : State), s.HealthLaw → i ≠ .powerOn → exec i s = .next t →
    s.health.correctable ≤ t.health.correctable ∧ s.health.uncorrectable ≤ t.health.uncorrectable ∧
      s.health.overrun ≤ t.health.overrun ∧ s.health.deferral ≤ t.health.deferral ∧
      (i ≠ .clearErrors → s.health.overflow ≤ t.health.overflow)

/-! ### Shared operations -/

/-- The five tests of one buffer reference, in order; the first that fails gives the status (R5). -/
def Obligations.ReferenceCheckOrder : Prop :=
  ∀ (s : State) (r : BufferRef) (c : Fin 16) (write : Bool) (len : Nat),
    (16 ≤ r.partition.toNat → checkRef s r c write len = some .partitionState) ∧
      ∀ i : Fin 16, r.partition.toNat = i.val →
        ((s.part i).state = .free ∨ (s.part i).state = .releasing →
            checkRef s r c write len = some .partitionState) ∧
          ((s.part i).state = .opened ∨ (s.part i).state = .frozen →
            (r.generation ≠ (s.part i).generation → checkRef s r c write len = some .stale) ∧
              (r.generation = (s.part i).generation →
                ((s.part i).mask.getLsbD c.val = false → checkRef s r c write len = some .access) ∧
                  ((s.part i).mask.getLsbD c.val = true →
                    (write = true ∧ (s.part i).state = .frozen → checkRef s r c write len = some .protect) ∧
                      (write = false ∨ (s.part i).state = .opened →
                        ((s.part i).length * 4096 < r.offset + len →
                            checkRef s r c write len = some .bounds) ∧
                          (r.offset + len ≤ (s.part i).length * 4096 → checkRef s r c write len = none)))))

/-- What the end of a descriptor that holds references does to every entry (R8, R9, R16, R18): counts fall by the
references that name it, the torn flag is set where R9 requires, and a RELEASING entry left without a reference becomes
FREE and keeps its generation. Nothing but the table changes, and, where the admin command in execution waits for an entry
so freed, that command: its wait ends and its completion is handed over with OK. A command that a drain has stopped waits
for no entry, so nothing is handed over for it (R17). -/
def Obligations.ReferencesReleasedAtEnd : Prop :=
  ∀ (s : State) (sl : Slot) (write torn : Bool), sl.refs ≠ .none →
    let a := fun i : Fin 16 => (refA sl.entry).partition.toNat = i.val
    let b := fun i : Fin 16 => sl.refs = .ab ∧ (refB sl.entry).partition.toNat = i.val
    let q := fun i : Fin 16 =>
      ({ s.part i with
          refs := (s.part i).refs - (if a i then 1 else 0) - (if b i then 1 else 0)
          writeRefs := (s.part i).writeRefs - (if a i ∧ write = true then 1 else 0)
          torn := (s.part i).torn || (decide (a i) && torn) } : Partition)
    let frees := fun i : Fin 16 => (a i ∨ b i) ∧ (s.part i).state = .releasing ∧ (q i).refs = 0
    let t := releaseRefs s sl write torn
    (∀ i, t.part i = if frees i then Partition.freed (s.part i).generation else q i) ∧
      t = { s with partitions := t.partitions, admin := t.admin } ∧
      ((∀ c ∈ s.admin.command, ∀ i, c.wait = .references i → ¬frees i) → t.admin = s.admin) ∧
      ∀ c ∈ s.admin.command, ∀ i, c.wait = .references i → frees i →
        t.admin =
          { s.admin with
            command := some { c with wait := .none }
            handover :=
              some
                { tag := recordTag c.entry, bytesDone := 0, result := 0, channel := 0, status := .ok,
                  head := c.headAfter, notify := false } }

/-- The end happening of the descriptor in a slot (R69): references are released, the torn flag is set for a write kind
that ended part-way (R9), the completion of R70 joins the held list, the clean flag, the halt and the count follow (R36,
R38), and the slot is IDLE. Under SILENT only the references and the slot follow (R75). A descriptor that a drain ends
TERMINATED is counted in the working record and becomes the channel's terminated slot descriptor there (R157). -/
def Obligations.EndHappening : Prop :=
  ∀ (s : State) (k : Fin 4) (st : Status),
    let sl := s.slot k
    let x := s.chan sl.chan
    let t := endSlot s k st
    let write := ((descKind sl.entry).map Kind.writes).getD false
    let w := s.ctl.working
    let e := w.channels.get sl.chan
    (tearsPartition sl st = true ↔
        write = true ∧ st ≠ .ok ∧ 0 < sl.bytesDone ∧ sl.bytesDone < descLength sl.entry) ∧
      t.partitions = (releaseRefs s sl write (tearsPartition sl st)).partitions ∧
      t.admin = (releaseRefs s sl write (tearsPartition sl st)).admin ∧
      t.slot k = Slot.none ∧ (∀ j, j ≠ k → t.slot j = s.slot j) ∧ (∀ d, d ≠ sl.chan → t.chan d = s.chan d) ∧
      (sl.stop = .silent → t.chan sl.chan = x) ∧
      (sl.stop ≠ .silent →
        t.chan sl.chan =
          { x with
            slot := none
            completed := x.completed + 1
            clean := x.clean && (st == .ok || st == .markBroken)
            state :=
              if x.stopOnError = true ∧ st ≠ .ok ∧ st ≠ .markBroken ∧ (x.state = .running ∨ x.state = .paused) then
                .halted
              else x.state
            held :=
              x.held ++
                [{ tag := wordAt sl.entry 4
                   bytesDone := sl.bytesDone
                   result := if descKind sl.entry = some .checksum then sl.crc ^^^ 0xFFFFFFFF#32 else 0
                   channel := sl.chan.val + 1
                   status := st
                   head := sl.headAfter
                   notify := (byteAt sl.entry 1).getLsbD 0 }] }) ∧
      t.ctl =
        (if sl.stop ≠ .silent ∧ s.ctl.op = .draining ∧ st = .terminated then
          { s.ctl with
            working :=
              { w with
                channels :=
                  w.channels.set sl.chan
                    { e with
                      terminated := e.terminated + 1, slotDesc := some (wordAt sl.entry 4, sl.bytesDone) } } }
        else s.ctl) ∧
      t.mem = s.mem ∧ t.rings = s.rings ∧ t.link = s.link ∧ t.port = s.port ∧ t.health = s.health ∧
      t.events = s.events

/-- The fields of a descriptor as a 512-bit record holds them (R177), which kinds write (R50), and the address of a range:
the partition's base times 4,096, plus the offset (R52). Pieces and their port operations: a piece ends at the end of the
range or where a cut lies and holds no cut inside; a COPY is cut at the boundaries of both ranges (R54). A piece is written
by at most three operations, ascending and without a gap: a write burst of whole ECC words, and read-modify-writes inside
one word that they do not fill (R55). A read covers every ECC word it touches (R55), and the lines of a read or a write
are those of R104 and R105. One byte taken into the CRC register (R63). -/
def Obligations.PiecesAndOperations : Prop :=
  (∀ r : Record,
      let n := r.toNat
      descKind r =
          [none, some .writeIn, some .readOut, some .copy, some .fill, some .checksum, some .mark].getD (n % 256) none ∧
        (byteAt r 1).getLsbD 0 = decide (n / 2 ^ 8 % 2 = 1) ∧ (wordAt r 4).toNat = n / 2 ^ 32 % 2 ^ 32 ∧
        descLength r = n / 2 ^ 64 % 2 ^ 32 ∧ (longAt r 32).toNat = n / 2 ^ 256 % 2 ^ 64 ∧
        (longAt r 40).toNat = n / 2 ^ 320 % 2 ^ 64 ∧ (wordAt r 40).toNat = n / 2 ^ 320 % 2 ^ 32 ∧
        ∀ p ∈ [(refA r, 128), (refB r, 192)],
          p.1.offset = n / 2 ^ p.2 % 2 ^ 40 ∧ p.1.generation.toNat = n / 2 ^ (p.2 + 40) % 256 ∧
            p.1.partition.toNat = n / 2 ^ (p.2 + 48) % 256) ∧
    (∀ k : Kind, k.writes = true ↔ k = .writeIn ∨ k = .copy ∨ k = .fill) ∧
    (∀ (s : State) (sl : Slot) (i : Fin 16),
      ((refA sl.entry).partition.toNat = i.val → rangeA s sl = (s.part i).base * 4096 + (refA sl.entry).offset) ∧
        ((refB sl.entry).partition.toNat = i.val → rangeB s sl = (s.part i).base * 4096 + (refB sl.entry).offset)) ∧
    (∀ (s : State) (sl : Slot) (p : Nat), p < descLength sl.entry →
      let n := pieceLength s sl p
      let cut := fun q : Nat =>
        (rangeA s sl + q) % 256 = 0 ∨ (descKind sl.entry = some .copy ∧ (rangeB s sl + q) % 256 = 0)
      1 ≤ n ∧ n ≤ 256 ∧ p + n ≤ descLength sl.entry ∧ (∀ i < n, 0 < i → ¬cut (p + i)) ∧
        (p + n = descLength sl.entry ∨ cut (p + n))) ∧
    (∀ pos addr len : Nat, 1 ≤ len →
      let ops := writeOps pos addr len
      1 ≤ ops.length ∧ ops.length ≤ 3 ∧ (ops.map SlotOp.len).sum = len ∧
        ops.Pairwise (fun o q => o.addr + o.len ≤ q.addr) ∧
        ∀ o ∈ ops,
          1 ≤ o.len ∧ addr ≤ o.addr ∧ o.addr + o.len ≤ addr + len ∧ o.addr - addr = o.pos - pos ∧ pos ≤ o.pos ∧
            ((o.kind = .write ∧ o.addr % 8 = 0 ∧ o.len % 8 = 0) ∨
              (o.kind = .rmw ∧ o.len < 8 ∧ o.addr / 8 = (o.addr + o.len - 1) / 8))) ∧
    (∀ addr len a : Nat, 1 ≤ len → (a ∈ wordAddresses addr len ↔ a % 8 = 0 ∧ a < addr + len ∧ addr < a + 8)) ∧
    (∀ addr len a : Nat, a ∈ wholeLines addr len ↔ a % 64 = 0 ∧ addr ≤ a ∧ a + 64 ≤ addr + len) ∧
    (∀ (ws : List (Nat × Finding)) (a : Nat),
      a ∈ badLines ws ↔ ∃ w ∈ ws, w.2.condition = .uncorrectable ∧ a = w.1 / 64 * 64) ∧
    ∀ (x : Word32) (b : Byte),
      crcByte x b =
        (List.range 8).foldl (fun (y : Word32) _ => if y.getLsbD 0 = true then (y >>> 1) ^^^ 0xEDB88320#32 else y >>> 1)
          (x ^^^ b.setWidth 32)

/-- The order in which a free port is granted (R100, R101): a forced refresh, the slots of class URGENT and then of class
BULK round-robin after the class's pointer, a due refresh, self-refresh entry, a scrub line. What each grant does (R99,
R110, R113); a port that is held is granted to nobody. No port stays free while a request stands: that holds at power-on,
and every step keeps it. -/
def Obligations.PortGrantOrder : Prop :=
  (∀ s : State,
    let waits := fun (cls : ChannelClass) (k : Fin 4) => (s.slot k).port = .waiting ∧ (s.slot k).cls = cls
    let first := fun (cls : ChannelClass) (p k : Fin 4) =>
      waits cls k ∧ ∀ j, waits cls j → (k.val + 3 - p.val) % 4 ≤ (j.val + 3 - p.val) % 4
    (s.port.holder ≠ .none → settlePort s = s) ∧
      (s.port.holder = .none → settlePort s = grantPort s (portChoice s)) ∧
      (s.memState ≠ .ready → portChoice s = .none) ∧
      (s.memState = .ready →
        (s.refresh.limit < s.refresh.debt → portChoice s = .refreshEngine) ∧
          (s.refresh.debt ≤ s.refresh.limit →
            (∀ k, first .urgent s.port.urgentPointer k → portChoice s = .slot k) ∧
              ((∀ j, ¬waits .urgent j) →
                (∀ k, first .bulk s.port.bulkPointer k → portChoice s = .slot k) ∧
                  ((∀ j, ¬waits .bulk j) →
                    (0 < s.refresh.debt → portChoice s = .refreshEngine) ∧
                      (s.refresh.debt = 0 →
                        let entry := s.port.entryRequest = true ∧ ∀ k, (s.slot k).state = .idle
                        (entry → portChoice s = .selfRefreshEntry) ∧
                          (¬entry →
                            portChoice s =
                              if s.scrub.request = true ∧
                                  (s.ctl.op = .standby ∨ s.ctl.op = .active ∨ s.ctl.op = .quiescing) then
                                .scrubUnit
                              else .none)))))) ∧
      (∀ k : Fin 4,
        grantPort s (.slot k) =
          { s.setSlot k { s.slot k with port := .inProgress } with
            port :=
              match (s.slot k).cls with
              | .urgent => { s.port with holder := .slot k, urgentPointer := k }
              | .bulk => { s.port with holder := .slot k, bulkPointer := k } }) ∧
      grantPort s .refreshEngine = { s with port := { s.port with holder := .refreshEngine } } ∧
      grantPort s .scrubUnit = { s with port := { s.port with holder := .scrubUnit } } ∧
      grantPort s .selfRefreshEntry =
        { s with
          port := { s.port with holder := .selfRefreshEntry, entryRequest := false }
          refresh :=
            { s.refresh with
              timer := none, interval := s.refresh.pendingInterval.getD s.refresh.interval,
              pendingInterval := none } } ∧
      grantPort s .none = s) ∧
    settlePort State.reset = State.reset ∧
    ∀ s t : State, settlePort s = s → step s = .next t → settlePort t = t

/-- When a tag is asked for: by a slot (R57), by a channel's fetch (R28), by the admin fetch (R131). The order in which
grants are made, one after another, each of the lowest-numbered FREE tag, while the link is UP (R169): slots round-robin
after the slot pointer, the admin fetch, channels round-robin after the channel pointer. The read each grant issues: a
piece of a slot (R57), or the entries of a ring (R28, R131): the least of what is pending, the room in the fetched queue
and what lies before the end of the ring, 64 bytes each, from the ring's head. No FREE tag and request stand together while
the link is UP: that holds at power-on, and every step keeps it. The retained law is a premise: it says that self-refresh
entry is made in DRAINING alone. -/
def Obligations.TagGrantOrder : Prop :=
  (∀ s : State,
    let asks := fun k : Fin 4 => s.link.slotRequests.get k = true
    let wants := fun c : Fin 16 => s.fetchOf c = .requesting
    let waiting := fun (h : TagHolder) (addr : HostAddr) (len pos : Nat) =>
      ({ state := .waiting, holder := h, addr := addr, len := len, pos := pos, data := [], orphan := false,
         left := s.link.timeoutMs * 10000, timeoutMs := s.link.timeoutMs } : Tag)
    let placed := refreshRequests s
    (∀ k,
        let sl := s.slot k
        placed.link.slotRequests.get k = true ↔
          sl.state = .run ∧ descKind sl.entry = some .writeIn ∧ sl.reads + sl.inHand.length < 2 ∧
            sl.nextPiece < descLength sl.entry) ∧
      (∀ c,
        let x := s.chan c
        let wanted :=
          s.ctl.op = .active ∧ x.state = .running ∧ (x.tail + x.size - x.head) % x.size ≠ 0 ∧ x.queue.length < 8
        placed.fetchOf c =
          if s.fetchOf c = .empty ∨ s.fetchOf c = .requesting then (if wanted then .requesting else .empty)
          else s.fetchOf c) ∧
      (let x := s.admin
       let wanted :=
         s.ctl.op = .active ∧ x.processor ≠ .halted ∧ (x.tail + x.size - x.head) % x.size ≠ 0 ∧ x.queue.length < 4
       placed.adminFetch =
         if s.adminFetch = .empty ∨ s.adminFetch = .requesting then (if wanted then .requesting else .empty)
         else s.adminFetch) ∧
      placed =
        { s with
          fetch := placed.fetch, adminFetch := placed.adminFetch
          link := { s.link with slotRequests := placed.link.slotRequests } } ∧
      settleLink s = grantTags 16 placed ∧
      (∀ n : Fin 16,
        (∀ (g : Fin 16) (h : TagHolder), s.link.up = true → (s.tag g).state = .free →
            (∀ f, f < g → (s.tag f).state ≠ .free) → grantHolder s = some h →
            grantTags (n.val + 1) s = grantTags n.val (grantTo s g h)) ∧
          (s.link.up = false ∨ (∀ g, (s.tag g).state ≠ .free) ∨ grantHolder s = none →
            grantTags (n.val + 1) s = s)) ∧
      grantTags 0 s = s ∧
      (∀ k, asks k →
        (∀ j, asks j → (k.val + 3 - s.link.slotPointer.val) % 4 ≤ (j.val + 3 - s.link.slotPointer.val) % 4) →
        grantHolder s = some (.slot k)) ∧
      ((∀ j, ¬asks j) →
        (s.adminFetch = .requesting → grantHolder s = some .admin) ∧
          (s.adminFetch ≠ .requesting →
            (∀ c, wants c →
                (∀ d, wants d →
                  (c.val + 15 - s.link.channelPointer.val) % 16 ≤ (d.val + 15 - s.link.channelPointer.val) % 16) →
                grantHolder s = some (.channel c)) ∧
              ((∀ c, ¬wants c) → grantHolder s = none))) ∧
      (∀ (g : Fin 16) (k : Fin 4),
        let sl := s.slot k
        let n := pieceLength s sl sl.nextPiece
        let a := longAt sl.entry 32 + BitVec.ofNat 64 sl.nextPiece
        let u :=
          (s.setTag g (waiting (.slot k) a n sl.nextPiece)).setSlot k
            { sl with reads := sl.reads + 1, nextPiece := sl.nextPiece + n }
        grantTo s g (.slot k) =
          { u with
            link :=
              { u.link with
                outbound := s.link.outbound ++ [.read g a n], slotPointer := k
                slotRequests := s.link.slotRequests.set k ((refreshRequests u).link.slotRequests.get k) } }) ∧
      (∀ g c : Fin 16,
        let x := s.chan c
        let n := min ((x.tail + x.size - x.head) % x.size) (min (8 - x.queue.length) (x.size - x.head))
        let a := x.base + BitVec.ofNat 64 (64 * x.head)
        let u := (s.setTag g (waiting (.channel c) a (64 * n) 0)).setFetch c (.inFlight n)
        grantTo s g (.channel c) =
          { u with
            link := { u.link with outbound := s.link.outbound ++ [.read g a (64 * n)], channelPointer := c } }) ∧
      ∀ g : Fin 16,
        let x := s.admin
        let n := min ((x.tail + x.size - x.head) % x.size) (min (4 - x.queue.length) (x.size - x.head))
        let a := x.base + BitVec.ofNat 64 (64 * x.head)
        let u := s.setTag g (waiting .admin a (64 * n) 0)
        grantTo s g .admin =
          { u with
            adminFetch := .inFlight n, link := { u.link with outbound := s.link.outbound ++ [.read g a (64 * n)] } }) ∧
    settleLink State.reset = State.reset ∧
    ∀ s t : State, s.RetainedLaw → settleLink s = s → step s = .next t → settleLink t = t

/-- Raising a clear cause sets it and hands vector 0 to the link; raising a set cause changes nothing (R94, R96). A write
of EVENTS clears each cause for which it carries a one, and clearing MONITOR_ALERT sets the detail to NONE (R95). -/
def Obligations.EventsRaisedAndCleared : Prop :=
  (∀ (s : State) (c : Cause),
      (s.events.has c = true → s.raise c = s) ∧
        (s.events.has c = false →
          (∀ d, (s.raise c).events.has d = (s.events.has d || decide (d = c))) ∧
            s.raise c =
              { s with
                events := (s.raise c).events
                link :=
                  { s.link with
                    outbound :=
                      if s.link.up = true ∧ s.link.messageEnable = true then s.link.outbound ++ [.message 0]
                      else s.link.outbound } } ∧
            (s.raise c).events.detail = s.events.detail)) ∧
    ∀ (value : BitVec 32) (s : State), s.power.core = true → s.link.up = true →
      ∃ t, exec (.eventsWrite value) s = .next t ∧ t = { s with events := t.events } ∧
        (∀ c, t.events.has c = (s.events.has c && !value.getLsbD c.bit)) ∧
        t.events.detail = if value.getLsbD 0 = true then .none else s.events.detail

/-- What software reads in the register window and what its writes spell (R175, R176): whole registers, their 4-byte
halves, and the accesses that read 0 and are ignored. That a misaligned access of 4 or 8 bytes is among those is the
model's choice (log entry 27). -/
def Obligations.RegisterWindow : Prop :=
  (∀ s : State,
      let state := readWindow s 0x08 8
      let beat := readWindow s 0x18 4
      let events := readWindow s 0x1C 4
      (readWindow s 0x00 4).extractLsb' 0 8 = 0x48#8 ∧
        ((readWindow s 0x00 4).extractLsb' 16 2).toNat = s.capacity.code ∧
        (readWindow s 0x00 8).extractLsb' 24 24 = 0x081004#24 ∧
        (state.extractLsb' 0 4).toNat = s.ctl.op.code ∧ (state.extractLsb' 4 2).toNat = s.ctl.phase.code ∧
        state.getLsbD 6 = s.ctl.retainedPending ∧ (state.extractLsb' 8 2).toNat = s.monitor.state.code ∧
        (state.extractLsb' 12 3).toNat = s.memState.code ∧
        state.getLsbD 15 = decide (s.power.source = .backup) ∧ state.getLsbD 16 = s.power.pwrWarn ∧
        beat.extractLsb' 0 8 = s.monitor.beat ∧ (beat.extractLsb' 8 3).toNat = s.monitor.last.code ∧
        events.extractLsb' 0 9 = s.events.causes ∧ (events.extractLsb' 16 2).toNat = s.events.detail.code ∧
        readWindow s 0x20 8 = s.adminRing.submissionBase ∧ readWindow s 0x28 8 = s.adminRing.completionBase ∧
        readWindow s 0x30 8 = s.adminRing.size.setWidth 64 ∧
        (∀ o ∈ [0x00, 0x08, 0x20, 0x28, 0x30],
          readWindow s o 4 = ((readWindow s o 8).extractLsb' 0 32).setWidth 64 ∧
            readWindow s (o + 4) 4 = ((readWindow s o 8).extractLsb' 32 32).setWidth 64) ∧
        (∀ o w, (o = 0x10 ∧ w = 8) ∨ (o = 0x18 ∧ w = 8) ∨ o = 0x38 ∨ o = 0x3C ∨ (w ≠ 4 ∧ w ≠ 8) ∨
          (o = 0x10 ∧ w = 4) ∨ (o = 0x14 ∧ w = 4) ∨ (w = 4 ∧ o % 4 ≠ 0) ∨ (w = 8 ∧ o % 8 ≠ 0) →
            readWindow s o w = 0)) ∧
    ∀ v : BitVec 64,
      (v.extractLsb' 0 2 = 1#2 → decodeRegisterWrite 0x10 4 v = .enable) ∧
        (v.extractLsb' 0 2 = 2#2 → decodeRegisterWrite 0x10 4 v = .quiesce) ∧
        (v.extractLsb' 0 2 = 3#2 → decodeRegisterWrite 0x10 4 v = .functionReset) ∧
        (v.extractLsb' 0 2 = 0#2 → decodeRegisterWrite 0x10 4 v = .registerWriteIgnored 0x10 4 v) ∧
        (v.getLsbD 24 = false →
          decodeRegisterWrite 0x14 4 v = .notifySqTail (v.extractLsb' 16 8) (v.extractLsb' 0 16)) ∧
        (v.getLsbD 24 = true →
          decodeRegisterWrite 0x14 4 v = .notifyCqHead (v.extractLsb' 16 8) (v.extractLsb' 0 16)) ∧
        decodeRegisterWrite 0x18 4 v = .heartbeatWrite (v.extractLsb' 0 32) ∧
        decodeRegisterWrite 0x1C 4 v = .eventsWrite (v.extractLsb' 0 32) ∧
        (∀ p ∈ [(0x20, AdminRingField.submissionBase), (0x28, .completionBase), (0x30, .size)],
          decodeRegisterWrite p.1 8 v = .adminRingWrite p.2 .whole v ∧
            decodeRegisterWrite p.1 4 v = .adminRingWrite p.2 .low v ∧
            decodeRegisterWrite (p.1 + 4) 4 v = .adminRingWrite p.2 .high v) ∧
        ∀ o w, o < 0x10 ∨ 0x38 ≤ o ∨ (w ≠ 4 ∧ w ≠ 8) ∨ (w = 8 ∧ (o = 0x10 ∨ o = 0x18)) ∨ (w = 4 ∧ o % 4 ≠ 0) ∨
            (w = 8 ∧ o % 8 ≠ 0) →
          decodeRegisterWrite o w v = .registerWriteIgnored o w v

/-! ### Power, supplies and the array's start -/

/-- Where POWER_ON, WARM_START, CORE_LOGIC_POWER_DOWN and the supplies complete, and what they leave (R149, R162, R163).
A start of core logic with a valid record and the array in self-refresh is a warm start, any other a power-on. The power
source read after both supplies are gone, and the fields to which the spec gives no value at a start, are the model's choice
(log entries 4 and 17). -/
def Obligations.PowerAndSupplies : Prop :=
  ∀ s : State,
    let retains := s.power.alwaysOn = true ∧ s.ctl.record.valid = true ∧ s.memState = .selfRefresh
    let fresh : State :=
      { State.reset with
        capacity := s.capacity, power := { s.power with core := true, alwaysOn := true }
        link := { Link.fresh with delivered := s.link.delivered }, freeCount := s.freeCount, pending := s.pending }
    (s.power.core = false → ¬retains → exec .powerOn s = .next fresh) ∧
      (s.power.core = false → retains →
        exec .warmStart s =
          .next
            { fresh with
              ctl :=
                { fresh.ctl with
                  op := .retained, retainedPending := s.ctl.retainedPending, deadlineMs := s.ctl.deadlineMs,
                  record := s.ctl.record }
              partitions := s.partitions, mem := s.mem, memState := .selfRefresh, health := s.health
              port := { fresh.port with holder := .none }
              refresh := { fresh.refresh with interval := s.refresh.interval, limit := s.refresh.limit }
              scrub := { fresh.scrub with period := s.scrub.period, pointer := s.scrub.pointer }
              monitor :=
                { fresh.monitor with
                  periodCode := s.monitor.periodCode, window := s.monitor.window, grace := s.monitor.grace }
              events := { causes := 0x40#9, detail := .none } }) ∧
      (s.power.core = true → s.ctl.op = .retained → s.memState = .selfRefresh → s.power.pwrWarn = true →
        s.power.source = .backup →
        exec .coreLogicPowerDown s = .next { s with power := { s.power with core := false } }) ∧
      exec .pwrWarnDeasserted s = .next { s with power := { s.power with pwrWarn := false } } ∧
      (s.power.alwaysOn = true → exec .mainPowerLoss s = .next { s with power := { s.power with source := .backup } }) ∧
      exec .mainPowerReturn s = .next { s with power := { s.power with source := .main } } ∧
      (s.power.source = .backup →
        exec .backupSupplyFailure s =
          .next { s with power := { s.power with core := false, alwaysOn := false, source := .main } })

/-- The end of memory initialisation (R109, R150): the array is READY with a debt of 1 and the state STANDBY with scrubbing
started (R120), or both are FAULT. PWR_WARN found asserted as the state becomes STANDBY settles it in the same happening
with reason POWER_WARN (R150, R155, R160). -/
def Obligations.MemoryInitialisation : Prop :=
  ∀ s : State, s.power.core = true → s.ctl.op = .init → s.memState = .init →
    let running := { s.refresh with debt := 1, timer := some s.refresh.interval }
    exec (.memoryInitialisation false) s =
        .next
          { s with
            port := { s.port with holder := .none }, memState := .fault, ctl := { s.ctl with op := .memoryFault } } ∧
      (s.power.pwrWarn = false → s.EntryLaw →
        Concludes (.memoryInitialisation true) s
          { s with
            port := { s.port with holder := .none }, memState := .ready, ctl := { s.ctl with op := .standby }
            refresh := running
            scrub :=
              { s.scrub with
                timer := if s.scrub.period = 0 then none else some (s.scrub.period * 10), request := false } }) ∧
      (s.power.pwrWarn = true → (∀ c, s.chan c = Channel.none) → (∀ r, s.ring r = Ring.none) →
        ∃ t, exec (.memoryInitialisation true) s = .next t ∧ t.refresh = running ∧
          t.besideGrants =
            ({ s with
                memState := .ready, refresh := running
                ctl :=
                  { s.ctl with
                    op := .draining, phase := .settle, deadline := none, expired := false, adminDone := none
                    working := { RetentionRecord.invalid with reason := .powerWarn, timestamp := s.time.micros } }
                fetch := tabulate 16 fun c => (s.fetchOf c).orphan
                scrub := { s.scrub with timer := none, request := false }
                admin :=
                  { Admin.none with
                    base := s.admin.base, size := s.admin.size, tail := s.admin.tail, head := s.admin.head }
                adminFetch := s.adminFetch.orphan
                port := { s.port with entryRequest := true } } : State).besideGrants)

/-! ### Drains -/

/-- Each trigger taken in ACTIVE or QUIESCING starts a drain with its reason and the timebase of that happening (R155,
R156). The command in execution is stopped and its tag kept; the drain's admin completion is the one that waited, with its
own status, or TERMINATED where none had been handed over (R137); a link down or a link reset fails its reads first
(R173), which may complete a waiting RELEASE_PARTITION with OK. ENTER_RETENTION becomes the drain's admin completion with
status OK (R165). That the grace's expiry lets the time left pass is the model's choice (log entry 8). -/
def Obligations.DrainStarts : Prop :=
  ∀ s : State, s.power.core = true → s.ctl.op = .active ∨ s.ctl.op = .quiescing →
    let ended := fun (p : AdminCommand) (st : Status) =>
      ({ tag := recordTag p.entry, bytesDone := 0, result := 0, channel := 0, status := st, head := p.headAfter,
         notify := false } : Completion)
    let stops := fun (t : State) (linkFails : Bool) =>
      t.ctl.working.adminTag = s.admin.command.map (fun p => recordTag p.entry) ∧ t.admin.handover = none ∧
        (t.ctl.phase ≠ .settle →
          (s.admin.command = none → t.ctl.adminDone = none) ∧
            ∀ p ∈ s.admin.command,
              (∀ h ∈ s.admin.handover, (∀ i, p.wait ≠ .references i) → t.ctl.adminDone = some h) ∧
                (s.admin.handover = none →
                  t.ctl.adminDone = some (ended p .terminated) ∨
                    (linkFails = true ∧ ∃ i, p.wait = .references i ∧ (t.part i).state = .free ∧
                      t.ctl.adminDone = some (ended p .ok))))
    (s.power.pwrWarn = false →
        ∃ t, exec .pwrWarnAsserted s = .next t ∧ t.power.pwrWarn = true ∧
          DrainBegun s t .powerWarn s.time.micros ∧ stops t false) ∧
      (s.link.up = true →
        ∃ t, exec .linkDown s = .next t ∧ t.link.up = false ∧ DrainBegun s t .linkDown s.time.micros ∧
          stops t true) ∧
      (∃ t, exec .linkReset s = .next t ∧ DrainBegun s t .linkReset s.time.micros ∧ stops t true) ∧
      (s.monitor.state = .alert →
        ∃ t, exec .graceTimerExpiry s = .next t ∧ t.monitor.state = .tripped ∧ t.monitor.graceLeft = none ∧
          DrainBegun s t .monitorTrip (s.time.after (s.monitor.graceLeft.getD 0)).micros ∧ stops t false) ∧
      ∀ f rest, Takes s f rest 19 → s.admin.handover = none →
        ∃ t, exec .enterRetention s = .next t ∧ DrainBegun s t .hostRequest s.time.micros ∧
          t.ctl.working.adminTag = some (recordTag f.entry) ∧
          (t.ctl.phase ≠ .settle →
            t.ctl.adminDone =
              some
                { tag := recordTag f.entry, bytesDone := 0, result := 0, channel := 0, status := .ok,
                  head := f.headAfter, notify := false })

/-- A PWR_WARN assertion in STANDBY, where no channel or ring exists, settles at once: scrubbing stops, the working record
names no channel, and self-refresh entry is requested (R155, R160). The admin ring's indices stay until RETAINED, the
model's reading (log entry 13). In a state that is not STANDBY, ACTIVE or QUIESCING,
the assertion moves nothing but the pin's level. -/
def Obligations.StandbySettles : Prop :=
  ∀ s : State, s.power.pwrWarn = false →
    (s.power.core = true → s.ctl.op = .standby → (∀ c, s.chan c = Channel.none) → (∀ r, s.ring r = Ring.none) →
        Reaches .pwrWarnAsserted s
          { s with
            power := { s.power with pwrWarn := true }
            ctl :=
              { s.ctl with
                op := .draining, phase := .settle, deadline := none, expired := false, adminDone := none
                working := { RetentionRecord.invalid with reason := .powerWarn, timestamp := s.time.micros } }
            fetch := tabulate 16 fun c => (s.fetchOf c).orphan
            scrub := { s.scrub with timer := none, request := false }
            admin :=
              { Admin.none with
                base := s.admin.base, size := s.admin.size, tail := s.admin.tail, head := s.admin.head }
            adminFetch := s.adminFetch.orphan
            port := { s.port with entryRequest := true } }) ∧
      (s.power.core = false ∨ (s.ctl.op ≠ .standby ∧ s.ctl.op ≠ .active ∧ s.ctl.op ≠ .quiescing) →
        exec .pwrWarnAsserted s = .next { s with power := { s.power with pwrWarn := true } })

/-! ### The link and the register window -/

/-- A link that comes up grants tags to the requests that stand (R169, R173). A link that goes down, and a link reset, empty
the outbound queue, make every tag FREE and fail every WAITING read, whose holder is told (R167, R173, R174): a fetch
record becomes empty; in ACTIVE and QUIESCING a live fetch halts its channel and raises FETCH_ERROR, or raises ADMIN_FAULT
(R30, R133), and a slot in RUN ends HOST_READ_ERROR (R65). A link down ends FLUSH with the deadline's outcome (R158). A
link reset resets the register window, the message enable and the vectors granted, and keeps EVENTS, both pointers and the
timeout (R128, R138, R167, R174); the channel law rules out a slot in RUN outside ACTIVE and QUIESCING, which could be
granted a tag after it. In the other states the operating state does not move. -/
def Obligations.LinkChanges : Prop :=
  ∀ s : State, s.power.core = true →
    let working := s.ctl.op = .active ∨ s.ctl.op = .quiescing
    let told := fun t : State => ∀ g, (s.tag g).state = .waiting →
      (∀ c n, (s.tag g).holder = .channel c →
          (s.fetchOf c = .inFlight n ∨ s.fetchOf c = .orphaned n → t.fetchOf c = .empty) ∧
            (s.fetchOf c = .inFlight n → working →
              t.events.has .fetchError = true ∧
                ((s.chan c).state = .running ∨ (s.chan c).state = .paused → t.ctl.phase ≠ .settle →
                  (t.chan c).state = .halted))) ∧
        (∀ n, (s.tag g).holder = .admin →
          (s.adminFetch = .inFlight n ∨ s.adminFetch = .orphaned n → t.adminFetch = .empty) ∧
            (s.adminFetch = .inFlight n → working → t.events.has .adminFault = true)) ∧
        ∀ k, (s.tag g).holder = .slot k → (s.tag g).orphan = false → (s.slot k).state = .run → working →
          (t.slot k = Slot.none ∨
              ((t.slot k).state = .ending ∧ (t.slot k).cause = .status .hostReadError ∧
                (t.slot k).bytesDone = (s.slot k).bytesDone)) ∧
            (t.slot k = Slot.none → t.ctl.phase ≠ .settle → (s.slot k).stop ≠ .silent →
              ∃ f ∈ (t.chan (s.slot k).chan).held,
                f.status = .hostReadError ∧ f.tag = wordAt (s.slot k).entry 4 ∧ f.bytesDone = (s.slot k).bytesDone)
    let idle := s.ctl.op ≠ .active ∧ s.ctl.op ≠ .quiescing ∧ s.ctl.op ≠ .draining
    (s.link.up = false →
        let u := { s with link := { s.link with up := true } }
        ∃ t, exec .linkUp s = .next t ∧ t = settleLink u ∧ t.besideTags = u.besideTags) ∧
      (s.link.up = true →
        ∃ t, exec .linkDown s = .next t ∧ told t ∧
          t.link = { s.link with up := false, outbound := [], tags := Vector.replicate 16 Tag.none,
                                 slotRequests := t.link.slotRequests } ∧
          t.mem = s.mem ∧ t.ctl.record = s.ctl.record ∧ t.adminRing = s.adminRing ∧
          (∀ c, s.events.has c = true → t.events.has c = true) ∧
          (s.ctl.op = .draining → s.ctl.phase = .flush →
            t.ctl.phase = .settle ∧ t.ctl.working.outcome = .deadline) ∧
          (idle → t.ctl = s.ctl)) ∧
      ∃ t, exec .linkReset s = .next t ∧ told t ∧ t.link.up = true ∧ t.link.messageEnable = false ∧
        t.link.vectors = .one ∧ t.link.timeoutMs = s.link.timeoutMs ∧ (∀ g, (t.tag g).state ≠ .quarantined) ∧
        (s.ChannelLaw →
          t.link =
            { s.link with
              up := true, outbound := [], messageEnable := false, vectors := .one
              tags := Vector.replicate 16 Tag.none, slotRequests := Vector.replicate 4 false }) ∧
        t.adminRing.submissionBase = 0 ∧ t.adminRing.completionBase = 0 ∧ t.adminRing.size = 0 ∧
        t.monitor.beat = 0 ∧ t.monitor.last = .none ∧ t.events.detail = s.events.detail ∧
        (∀ c, s.events.has c = true → t.events.has c = true) ∧ t.mem = s.mem ∧ t.ctl.record = s.ctl.record ∧
        (idle →
          t.ctl =
            { s.ctl with
              resetInExit :=
                s.ctl.resetInExit || (decide (s.ctl.op = .retained) && decide (s.memState = .exiting)) })

/-- Writes that reach ADMIN_RING in the states that admit them, as software reads them back (R128, R175), the
configuration write (R167), and a write that reaches no register that takes it (R175). A write refused by its state
changes nothing. -/
def Obligations.RegisterWrites : Prop :=
  ∀ (s : State) (v : BitVec 64) (offset width : Nat),
    (s.power.core = true → s.link.up = true →
        s.ctl.op = .standby ∨ (s.ctl.op = .retained ∧ s.memState ≠ .exiting) →
        ∀ (field : AdminRingField) (part : AccessPart),
          let o := match field with
            | .submissionBase => 0x20
            | .completionBase => 0x28
            | .size => 0x30
          ∃ t, exec (.adminRingWrite field part v) s = .next t ∧ t = { s with adminRing := t.adminRing } ∧
            (∀ q < 64, q ≠ o → q + 4 ≠ o → q ≠ o + 4 → readWindow t q 8 = readWindow s q 8) ∧
            (part = .whole → field ≠ .size → readWindow t o 8 = v) ∧
            (part = .whole → field = .size → readWindow t o 8 = (v.extractLsb' 0 16).setWidth 64) ∧
            (part = .low → field ≠ .size →
              readWindow t o 4 = (v.extractLsb' 0 32).setWidth 64 ∧ readWindow t (o + 4) 4 = readWindow s (o + 4) 4) ∧
            (part = .high → field ≠ .size →
              readWindow t (o + 4) 4 = (v.extractLsb' 0 32).setWidth 64 ∧ readWindow t o 4 = readWindow s o 4) ∧
            (part = .low → field = .size → readWindow t o 8 = (v.extractLsb' 0 16).setWidth 64) ∧
            (part = .high → field = .size → t = s)) ∧
      (s.ctl.op ≠ .standby → s.ctl.op ≠ .retained ∨ s.memState = .exiting →
        ∀ field part, exec (.adminRingWrite field part v) s = .next s) ∧
      (s.power.core = true → s.link.up = true → ∀ enabled granted,
        exec (.messageEnable enabled granted) s =
          .next { s with link := { s.link with messageEnable := enabled, vectors := granted } }) ∧
      exec (.registerWriteIgnored offset width v) s = .next s

/-! ### CONTROL -/

/-- ENABLE (R151, R152, R163): in STANDBY with good ADMIN_RING values the state is ACTIVE with the admin ring and ring 0 set
up, or a drain starts at once where the link is down; in RETAINED the self-refresh exit is requested and granted; bad
values, or PWR_WARN in RETAINED, raise ENABLE_REFUSED; in every other state nothing changes. -/
def Obligations.EnableTaken : Prop :=
  ∀ s : State, s.power.core = true →
    let reg := s.adminRing
    let good :=
      (∃ n : Fin 6, reg.size.toNat = 2 ^ (n.val + 3)) ∧ reg.submissionBase.toNat % 64 = 0 ∧
        reg.completionBase.toNat % 64 = 0
    (s.ctl.op = .standby → s.EntryLaw →
        (good → s.link.up = true →
            Concludes .enable s
              { s with
                ctl := { s.ctl with op := .active }
                admin := { Admin.none with base := reg.submissionBase, size := reg.size.toNat }
                rings :=
                  s.rings.set 0
                    { state := .active, base := reg.completionBase, size := reg.size.toNat, write := 0,
                      unconsumed := 0, lap := true, vector := 1, threshold := 1, delay := 0, unsignalled := 0,
                      timer := none, bound := 0, service := 15 } }) ∧
          (good → s.link.up = false →
            ∃ t, exec .enable s = .next t ∧ DrainBegun s t .linkDown s.time.micros) ∧
          (¬good → exec .enable s = .next (s.raise .enableRefused))) ∧
      (s.ctl.op = .retained → s.memState = .selfRefresh →
        (good ∧ s.power.pwrWarn = false →
            exec .enable s =
              .next { s with memState := .exiting, port := { s.port with holder := .selfRefreshExit } }) ∧
          (¬(good ∧ s.power.pwrWarn = false) → exec .enable s = .next (s.raise .enableRefused))) ∧
      (s.ctl.op = .retained → s.memState = .exiting → exec .enable s = .next s) ∧
      (s.ctl.op ≠ .standby → s.ctl.op ≠ .retained → exec .enable s = .next s)

/-- QUIESCE (R151, R153): ACTIVE becomes QUIESCING and the monitor is disarmed (R146); elsewhere nothing changes. -/
def Obligations.QuiesceTaken : Prop :=
  ∀ s : State,
    (s.power.core = true → s.link.up = true → s.ctl.op = .active → s.EntryLaw →
        Concludes .quiesce s
          { s with
            ctl := { s.ctl with op := .quiescing }
            monitor :=
              if s.monitor.state = .armed ∨ s.monitor.state = .alert then
                { s.monitor with state := .disarmed, elapsed := none, graceLeft := none }
              else s.monitor }) ∧
      (s.ctl.op ≠ .active → exec .quiesce s = .next s)

/-- FUNCTION_RESET (R151, R154): in ACTIVE or QUIESCING all work is abandoned and the state is STANDBY, with slots left
under SILENT (R75), reads orphaned (R31, R71) and what R154 keeps kept: an entry of the Partition Table changes only as
the references of slots that end are released (R4, R8; the reference law says that nothing else counts), of the monitor
only its state and timers (R138), of the link only the orphan marks and the requests (R168), and a port that is held
stays held (R99). In STANDBY the ADMIN_RING values (R128) and the Slot Scheduler's pointers and credits (R25) are reset;
elsewhere nothing changes. -/
def Obligations.FunctionResetTaken : Prop :=
  ∀ s : State, s.power.core = true → s.link.up = true →
    let fresh : Scheduler := { urgent := { pointer := 15, credit := 0 }, bulk := { pointer := 15, credit := 0 } }
    (s.ctl.op = .active ∨ s.ctl.op = .quiescing → s.EntryLaw →
        ∃ t, exec .functionReset s = .next t ∧
          t.ctl = { s.ctl with op := .standby } ∧
          (∀ c, t.chan c = Channel.none) ∧ (∀ r, t.ring r = Ring.none) ∧ t.admin = Admin.none ∧
          t.adminRing = { submissionBase := 0, completionBase := 0, size := 0 } ∧ t.sched = fresh ∧
          t.monitor =
            (if s.monitor.state = .armed ∨ s.monitor.state = .alert then
              { s.monitor with state := .disarmed, elapsed := none, graceLeft := none }
            else s.monitor) ∧
          (∀ k, t.slot k = Slot.none ∨
            ((t.slot k).state = .ending ∧ (t.slot k).stop = .silent ∧ (t.slot k).entry = (s.slot k).entry ∧
              (t.slot k).refs = (s.slot k).refs ∧ (t.slot k).bytesDone = (s.slot k).bytesDone) ∨
            ((s.slot k).state = .idle ∧ (t.slot k).state = .idle)) ∧
          (∀ k, (s.slot k).state = .check → t.slot k = Slot.none) ∧
          (∀ c, t.fetchOf c = (s.fetchOf c).orphan) ∧ t.adminFetch = s.adminFetch.orphan ∧
          (s.ReferenceLaw → ∀ i,
            ((s.part i).state = .releasing ∧ t.part i = Partition.freed (s.part i).generation) ∨
              (t.part i =
                  { s.part i with
                    refs := (t.part i).refs, writeRefs := (t.part i).writeRefs, torn := (t.part i).torn } ∧
                (t.part i).refs ≤ (s.part i).refs ∧ (t.part i).writeRefs ≤ (s.part i).writeRefs ∧
                ((s.part i).torn = true → (t.part i).torn = true))) ∧
          (∀ i, (∀ k, s.refsOf i k = 0) → t.part i = s.part i) ∧
          t.link =
            { s.link with
              tags := tabulate 16 fun g =>
                { s.tag g with
                  orphan :=
                    (s.tag g).orphan ||
                      decide ((s.tag g).state = .waiting ∧
                        ∃ k, (s.tag g).holder = .slot k ∧ (s.slot k).state = .run) }
              slotRequests := Vector.replicate 4 false } ∧
          (s.port.holder ≠ .none → t.port = s.port) ∧
          t.mem = s.mem ∧ t.health = s.health ∧ t.refresh = s.refresh ∧ t.scrub = s.scrub ∧ t.events = s.events ∧
          t.memState = s.memState ∧ t.power = s.power ∧ t.time = s.time) ∧
      (s.ctl.op = .standby →
        exec .functionReset s =
          .next { s with adminRing := { submissionBase := 0, completionBase := 0, size := 0 }, sched := fresh }) ∧
      (s.ctl.op ≠ .active → s.ctl.op ≠ .quiescing → s.ctl.op ≠ .standby → exec .functionReset s = .next s)

/-! ### NOTIFY, HEARTBEAT -/

/-- NOTIFY of a submission ring's tail (R27, R130): the tail of the admin ring or of a channel takes the index, and a fetch
is asked for where R28 says so; a refused write raises BAD_NOTIFY and changes nothing else. -/
def Obligations.SubmissionTails : Prop :=
  ∀ (s : State) (ring : BitVec 8) (index : BitVec 16), s.power.core = true → s.link.up = true →
    (ring = 0 →
        let ok := (s.ctl.op = .active ∨ s.ctl.op = .quiescing ∨ s.ctl.op = .draining) ∧ index.toNat < s.admin.size
        (ok →
            ∃ t, exec (.notifySqTail ring index) s = .next t ∧
              t.besideTags = { s with admin := { s.admin with tail := index.toNat } }.besideTags) ∧
          (¬ok → exec (.notifySqTail ring index) s = .next (s.raise .badNotify))) ∧
      (∀ c : Fin 16, ring.toNat = c.val + 1 →
        let x := s.chan c
        let ok := x.state ≠ .absent ∧ x.state ≠ .deleting ∧ index.toNat < x.size
        (ok →
            ∃ t, exec (.notifySqTail ring index) s = .next t ∧
              t.besideTags = (s.setChan c { x with tail := index.toNat }).besideTags ∧
              (s.ctl.op = .active → x.state = .running → (index.toNat + x.size - x.head) % x.size ≠ 0 →
                x.queue.length < 8 → s.fetchOf c = .empty → t.fetchOf c ≠ .empty)) ∧
          (¬ok → exec (.notifySqTail ring index) s = .next (s.raise .badNotify))) ∧
      (16 < ring.toNat → exec (.notifySqTail ring index) s = .next (s.raise .badNotify))

/-- NOTIFY of a completion ring's head (R84 to R86, R39): entries are released; a release of more than the ring holds
faults the ring, sends its unsignalled vector before the message of CQ_FAULT, and halts its channels; a refused write
raises BAD_NOTIFY and changes nothing else. -/
def Obligations.CompletionHeads : Prop :=
  ∀ (s : State) (ring : BitVec 8) (index : BitVec 16), s.power.core = true → s.link.up = true →
    (9 ≤ ring.toNat → exec (.notifyCqHead ring index) s = .next (s.raise .badNotify)) ∧
      ∀ r : Fin 9, ring.toNat = r.val →
        let x := s.ring r
        let released := (index.toNat + x.size - (x.write + x.size - x.unconsumed) % x.size) % x.size
        (x.state ≠ .active ∨ x.size ≤ index.toNat →
            exec (.notifyCqHead ring index) s = .next (s.raise .badNotify)) ∧
          (x.state = .active → index.toNat < x.size → s.EntryLaw →
            (released ≤ x.unconsumed →
                Concludes (.notifyCqHead ring index) s (s.setRing r { x with unconsumed := x.unconsumed - released })) ∧
              (x.unconsumed < released →
                let u := if 0 < x.unsignalled then s.handOut (.message x.vector) else s
                let y : Ring :=
                  if 0 < x.unsignalled then { x with state := .faulted, unsignalled := 0, timer := none }
                  else { x with state := .faulted }
                Concludes (.notifyCqHead ring index) s
                  { (u.setRing r y).raise .cqFault with
                    channels := tabulate 16 fun c =>
                      if (s.chan c).ring = r ∧ ((s.chan c).state = .running ∨ (s.chan c).state = .paused) then
                        { s.chan c with state := .halted }
                      else s.chan c }))

/-- HEARTBEAT writes and the period timer's expiry (R141 to R144, R94): what each token does in each monitor state, and the
alert with its grace and its detail. That an expiry lets the time left pass is the model's choice (log entry 8). -/
def Obligations.MonitorBeats : Prop :=
  ∀ (s : State) (value : BitVec 32) (e : Nat), s.power.core = true →
    let m := s.monitor
    let good := value.setWidth 8 = m.beat + 1
    let alert := fun (u : State) (d : AlertDetail) =>
      { u.raise .monitorAlert with events := { (u.raise .monitorAlert).events with detail := d } }
    (s.link.up = true →
        (m.state = .disarmed ∨ m.state = .tripped →
            exec (.heartbeatWrite value) s = .next { s with monitor := { m with last := .ignored } }) ∧
          (m.state = .armed ∨ m.state = .alert → ¬good →
            exec (.heartbeatWrite value) s = .next { s with monitor := { m with last := .wrong } }) ∧
          (m.state = .armed → m.periodCode = some e → good → ∀ elapsed ∈ m.elapsed,
            (elapsed < 125 * 2 ^ e * m.window * 10 →
                exec (.heartbeatWrite value) s =
                  .next
                    (alert
                      { s with
                        monitor :=
                          { m with
                            state := .alert, beat := m.beat + 1, elapsed := none,
                            graceLeft := some (m.grace * 10000), last := .early } }
                      .early)) ∧
              (125 * 2 ^ e * m.window * 10 ≤ elapsed →
                exec (.heartbeatWrite value) s =
                  .next
                    { s with
                      monitor :=
                        { m with beat := m.beat + 1, elapsed := some 0, graceLeft := none, last := .accepted } })) ∧
          (m.state = .alert → good →
            exec (.heartbeatWrite value) s =
              .next
                { s with
                  monitor :=
                    { m with
                      state := .armed, beat := m.beat + 1, elapsed := some 0, graceLeft := none,
                      last := .accepted } })) ∧
      (m.state = .armed → m.periodCode = some e → ∀ elapsed ∈ m.elapsed,
        let u := s.elapse (10000 * 2 ^ e - elapsed)
        exec .periodTimerExpiry s =
          .next
            (alert
              { u with
                monitor := { m with state := .alert, elapsed := none, graceLeft := some (m.grace * 10000) } }
              .late))

/-! ### Partition commands and refusals -/

/-- DEFINE_PARTITION, after the partition id (R12, R13): the checks in their order, and the entry it makes. -/
def Obligations.DefinePartition : Prop :=
  ∀ (s : State) (f : Fetched) (rest : List Fetched) (i : Fin 16), Takes s f rest 1 →
    s.ctl.retainedPending = false → (byteAt f.entry 8).toNat = i.val →
    let ends := fun st x => Completes .definePartition s f rest st 0 x
    let code := (byteAt f.entry 9).toNat
    let base := (wordAt f.entry 12).toNat
    let len := (wordAt f.entry 16).toNat
    let meets := fun j : Fin 16 =>
      (s.part j).state ≠ .free ∧ base < (s.part j).base + (s.part j).length ∧ (s.part j).base < base + len
    (len = 0 ∨ 2 ≤ code → ends .badParameter s) ∧
      (len ≠ 0 → code < 2 →
        ((s.part i).state ≠ .free → ends .alreadyExists s) ∧
          ((s.part i).state = .free →
            (s.capacity.units < base + len → ends .noSpace s) ∧
              (base + len ≤ s.capacity.units →
                ((∃ j, meets j) → ends .overlap s) ∧
                  ((∀ j, ¬meets j) →
                    ends .ok
                      (s.setPart i
                        { s.part i with
                          state := .opened, base := base, length := len, mask := halfAt f.entry 10
                          cls := if code = 1 then .keep else .discard
                          generation := (s.part i).generation + 1, torn := false })))))

/-- FREEZE_PARTITION, RELEASE_PARTITION and CLEAR_TORN, after the partition id (R14 to R16, R18, R19): each refusal in
its order, and the effect. A release completes at once where no reference is held, or waits for the last reference with
the entry RELEASING. -/
def Obligations.PartitionEntryCommands : Prop :=
  ∀ (s : State) (f : Fetched) (rest : List Fetched) (i : Fin 16),
    s.ctl.retainedPending = false → (byteAt f.entry 8).toNat = i.val →
    let p := s.part i
    (Takes s f rest 2 →
        (p.state ≠ .opened → Completes .freezePartition s f rest .wrongState 0 s) ∧
          (p.state = .opened →
            (p.writeRefs ≠ 0 → Completes .freezePartition s f rest .inUse 0 s) ∧
              (p.writeRefs = 0 → p.torn = true → Completes .freezePartition s f rest .torn 0 s) ∧
              (p.writeRefs = 0 → p.torn = false →
                Completes .freezePartition s f rest .ok 0 (s.setPart i { p with state := .frozen })))) ∧
      (Takes s f rest 4 →
        (p.state = .free ∨ p.state = .releasing → Completes .clearTorn s f rest .wrongState 0 s) ∧
          (p.state = .opened ∨ p.state = .frozen →
            Completes .clearTorn s f rest .ok 0 (s.setPart i { p with torn := false }))) ∧
      (Takes s f rest 3 →
        (p.state = .free ∨ p.state = .releasing → Completes .releasePartition s f rest .wrongState 0 s) ∧
          (p.state = .opened ∨ p.state = .frozen →
            (p.refs = 0 →
                Completes .releasePartition s f rest .ok 0
                  (s.setPart i
                    { state := .free, base := 0, length := 0, mask := 0, cls := .discard, generation := p.generation,
                      torn := false, refs := 0, writeRefs := 0 })) ∧
              (p.refs ≠ 0 →
                ∃ t, exec .releasePartition s = .next t ∧
                  t.besideTags =
                    { s.setPart i { p with state := .releasing } with
                      admin := s.admin.waiting f rest (.references i) }.besideTags)))

/-- Commands refused before their own checks: RETAINED_PENDING (R11, R40), an id outside its range (R11, R41 to R43), a
channel that does not exist (R41 to R43), and a code that names no command (R135). Nothing changes. -/
def Obligations.CommandRefusals : Prop :=
  ∀ (s : State) (f : Fetched) (rest : List Fetched) (code : Nat), Takes s f rest code →
    let id := (byteAt f.entry 8).toNat
    (code = 0 ∨ 23 ≤ code → Completes .unknownCommand s f rest .badCommand 0 s) ∧
      (s.ctl.retainedPending = true →
        ∀ p ∈ [(Instr.definePartition, 1), (.freezePartition, 2), (.releasePartition, 3), (.clearTorn, 4),
            (.createChannel, 6)],
          p.2 = code → Completes p.1 s f rest .retainedPending 0 s) ∧
      (s.ctl.retainedPending = false → 16 ≤ id →
        ∀ p ∈ [(Instr.definePartition, 1), (.freezePartition, 2), (.releasePartition, 3), (.clearTorn, 4)],
          p.2 = code → Completes p.1 s f rest .badId 0 s) ∧
      (∀ p ∈ [(Instr.pauseChannel, 8), (.resumeChannel, 9)], p.2 = code →
        (id = 0 ∨ 17 ≤ id → Completes p.1 s f rest .badId 0 s) ∧
          ∀ c : Fin 16, id = c.val + 1 → (s.chan c).state = .absent → Completes p.1 s f rest .notFound 0 s) ∧
      (code = 7 → s.EntryLaw →
        (id = 0 ∨ 17 ≤ id →
            Concludes .deleteChannel s { s with admin := s.admin.completing f rest .badId 0 }) ∧
          ∀ c : Fin 16, id = c.val + 1 → (s.chan c).state = .absent →
            Concludes .deleteChannel s { s with admin := s.admin.completing f rest .notFound 0 })

/-- GET_PARTITIONS, GET_HEALTH and GET_RETENTION_RECORD (R20, R127, R165): one posted write of the whole record from the
command's host address, before its completion, which is the model's reading of R20 (log entry 24); and the records'
lengths and fields (R180). -/
def Obligations.ReportsWritten : Prop :=
  ∀ (s : State) (f : Fetched) (rest : List Fetched),
    let a := longAt f.entry 8
    let r := s.ctl.record
    let field := fun (bytes : List Byte) (o n : Nat) => leValue ((bytes.drop o).take n)
    (∀ p ∈ [(Instr.getPartitions, 5), (.getHealth, 14), (.getRetentionRecord, 20)], Takes s f rest p.2 →
        a.toNat % 64 ≠ 0 → Completes p.1 s f rest .badParameter 0 s) ∧
      (a.toNat % 64 = 0 →
        (Takes s f rest 5 →
            Completes .getPartitions s f rest .ok 0 (s.handOut (.write a (partitionsBytes s)))) ∧
          (Takes s f rest 14 → Completes .getHealth s f rest .ok 0 (s.handOut (.write a (healthBytes s)))) ∧
          (Takes s f rest 20 → r.valid = false → Completes .getRetentionRecord s f rest .notRetained 0 s) ∧
          (Takes s f rest 20 → r.valid = true →
            Completes .getRetentionRecord s f rest .ok r.sequence (s.handOut (.write a (retentionBytes r))))) ∧
      (partitionsBytes s).length = 256 ∧ (healthBytes s).length = 128 ∧ (retentionBytes r).length = 640 ∧
      (∀ i : Fin 16,
        let p := s.part i
        let at' := fun o n => field (partitionsBytes s) (16 * i.val + o) n
        at' 0 1 = p.state.code ∧ at' 1 1 = p.cls.code ∧ at' 2 1 = p.generation.toNat ∧ at' 3 1 = p.torn.toNat ∧
          at' 4 4 = p.base % 2 ^ 32 ∧ at' 8 4 = p.length % 2 ^ 32 ∧ at' 12 2 = p.mask.toNat ∧
          at' 14 1 = p.refs % 256 ∧ at' 15 1 = p.writeRefs % 256) ∧
      (let h := field (healthBytes s)
       h 0 4 = s.health.correctable % 2 ^ 32 ∧ h 4 4 = s.health.uncorrectable % 2 ^ 32 ∧
          h 8 2 = s.health.overrun % 2 ^ 16 ∧ h 10 2 = s.health.deferral % 2 ^ 16 ∧
          h 12 1 = s.health.overflow % 256 ∧ h 13 1 = s.health.lines.length % 256 ∧ h 14 1 = s.refresh.limit % 256 ∧
          h 15 1 = s.refresh.pendingLimit.getD 255 % 256 ∧ h 16 2 = s.refresh.interval % 2 ^ 16 ∧
          h 18 1 = s.refresh.debt % 256 ∧ h 20 4 = s.scrub.period % 2 ^ 32 ∧ h 24 8 = s.scrub.pointer % 2 ^ 64 ∧
          ∀ i : Fin 8, h (32 + 8 * i.val) 8 = s.health.lines.getD i.val 0 % 2 ^ 64) ∧
      (let h := field (retentionBytes r)
       h 0 4 = r.sequence.toNat ∧ h 4 1 = r.valid.toNat + 2 * r.claimed.toNat + 4 * r.adminTag.isSome.toNat ∧
          h 5 1 = r.reason.code ∧ h 6 1 = r.outcome.code ∧ h 8 4 = r.timestamp.toNat ∧
          h 12 4 = (r.adminTag.getD 0).toNat ∧ h 16 2 = r.unflushed % 2 ^ 16 ∧ h 18 2 = r.overrun % 2 ^ 16 ∧
          h 20 1 = r.lines.length % 256 ∧ (∀ i : Fin 8, h (24 + 8 * i.val) 8 = r.lines.getD i.val 0 % 2 ^ 64) ∧
          ∀ c : Fin 16,
            let e := r.channels.get c
            let p := r.partitions.get c
            h (128 + 16 * c.val) 1 = e.existed.toNat + 2 * e.clean.toNat + 4 * e.slotDesc.isSome.toNat ∧
              h (129 + 16 * c.val) 1 = e.terminated % 256 ∧ h (130 + 16 * c.val) 2 = e.head % 2 ^ 16 ∧
              h (132 + 16 * c.val) 4 = e.mark.toNat ∧
              h (136 + 16 * c.val) 4 = ((e.slotDesc.map Prod.fst).getD 0).toNat ∧
              h (140 + 16 * c.val) 4 = (e.slotDesc.map Prod.snd).getD 0 % 2 ^ 32 ∧
              h (384 + 16 * c.val) 1 = p.state.code ∧ h (385 + 16 * c.val) 1 = p.cls.code ∧
              h (386 + 16 * c.val) 1 = p.generation.toNat ∧ h (387 + 16 * c.val) 1 = p.torn.toNat ∧
              h (388 + 16 * c.val) 4 = p.base % 2 ^ 32 ∧ h (392 + 16 * c.val) 4 = p.length % 2 ^ 32 ∧
              h (396 + 16 * c.val) 2 = p.mask.toNat ∧ h (398 + 16 * c.val) 2 = 0)

/-! ### Channel and completion ring commands -/

/-- CREATE_CHANNEL (R40): the checks in their order, and the context and the bound count it makes. -/
def Obligations.CreateChannel : Prop :=
  ∀ (s : State) (f : Fetched) (rest : List Fetched) (c : Fin 16) (q : Fin 9), Takes s f rest 6 →
    let ends := fun st x => Completes .createChannel s f rest st 0 x
    let id := (byteAt f.entry 8).toNat
    let ringId := (byteAt f.entry 12).toNat
    let weight := (byteAt f.entry 10).toNat
    let inRange :=
      (longAt f.entry 16).toNat % 64 = 0 ∧ (∃ n : Fin 10, (halfAt f.entry 14).toNat = 2 ^ (n.val + 3)) ∧
        (byteAt f.entry 9).toNat ≤ 1 ∧ 1 ≤ weight ∧ weight ≤ 16 ∧ (byteAt f.entry 11).toNat ≤ 1
    (s.ctl.retainedPending = true → ends .retainedPending s) ∧
      (s.ctl.retainedPending = false →
        (id = 0 ∨ 17 ≤ id → ends .badId s) ∧
          (id = c.val + 1 →
            ((s.chan c).state ≠ .absent → ends .alreadyExists s) ∧
              ((s.chan c).state = .absent →
                (ringId = 0 ∨ 9 ≤ ringId → ends .badId s) ∧
                  (ringId = q.val → q ≠ 0 →
                    ((s.ring q).state ≠ .active → ends .notFound s) ∧
                      ((s.ring q).state = .active →
                        (¬inRange → ends .badParameter s) ∧
                          (inRange →
                            ends .ok
                              ((s.setChan c
                                    { state := .running, base := longAt f.entry 16
                                      size := (halfAt f.entry 14).toNat, tail := 0, head := 0, queue := []
                                      slot := none, held := [], flush := []
                                      cls := if (byteAt f.entry 9).toNat = 1 then .urgent else .bulk
                                      weight := weight
                                      stopOnError := decide ((byteAt f.entry 11).toNat = 1)
                                      ring := q, mark := 0, clean := true, completed := 0 }).setRing q
                                { s.ring q with bound := (s.ring q).bound + 1 })))))))

/-- PAUSE_CHANNEL, RESUME_CHANNEL and DELETE_CHANNEL of a channel that exists (R41 to R43). A deletion makes the channel
DELETING, orphans its read, stops its slot and waits for the channel to be empty. -/
def Obligations.ChannelCommands : Prop :=
  ∀ (s : State) (f : Fetched) (rest : List Fetched) (c : Fin 16), (byteAt f.entry 8).toNat = c.val + 1 →
    (s.chan c).state ≠ .absent →
    let x := s.chan c
    (Takes s f rest 8 →
        (x.state = .running →
            Completes .pauseChannel s f rest .ok x.completed (s.setChan c { x with state := .paused })) ∧
          (x.state ≠ .running → Completes .pauseChannel s f rest .wrongState 0 s)) ∧
      (Takes s f rest 9 →
        let ok := (x.state = .paused ∨ x.state = .halted) ∧ (s.ring x.ring).state ≠ .faulted
        (ok → Completes .resumeChannel s f rest .ok 0 (s.setChan c { x with state := .running })) ∧
          (¬ok → Completes .resumeChannel s f rest .wrongState 0 s)) ∧
      (Takes s f rest 7 → s.EntryLaw →
        let u :=
          { (s.setChan c { x with state := .deleting }).setFetch c (s.fetchOf c).orphan with
            admin := s.admin.waiting f rest (.channelEmpty c) }
        Concludes .deleteChannel s
          (match x.slot with
            | none => u
            | some k => stopSlot u k .aborted))

/-- CREATE_CQ and DELETE_CQ (R91, R92): the checks in their order, the ring made, and the vector of unsignalled entries
sent before a ring is ABSENT. -/
def Obligations.CompletionRingCommands : Prop :=
  ∀ (s : State) (f : Fetched) (rest : List Fetched) (q : Fin 9), q ≠ 0 →
    let id := (byteAt f.entry 8).toNat
    let x := s.ring q
    let vector := (byteAt f.entry 9).toNat
    let threshold := (byteAt f.entry 10).toNat
    let inRange :=
      (longAt f.entry 16).toNat % 64 = 0 ∧ (∃ n : Fin 10, (halfAt f.entry 14).toNat = 2 ^ (n.val + 3)) ∧
        1 ≤ vector ∧ vector ≤ 15 ∧ 1 ≤ threshold ∧ threshold ≤ 64 ∧ (halfAt f.entry 12).toNat ≤ 1000
    (Takes s f rest 10 →
        (id = 0 ∨ 9 ≤ id → Completes .createCq s f rest .badId 0 s) ∧
          (id = q.val →
            (x.state ≠ .absent → Completes .createCq s f rest .alreadyExists 0 s) ∧
              (x.state = .absent →
                (¬inRange → Completes .createCq s f rest .badParameter 0 s) ∧
                  (inRange →
                    Completes .createCq s f rest .ok 0
                      (s.setRing q
                        { state := .active, base := longAt f.entry 16, size := (halfAt f.entry 14).toNat, write := 0,
                          unconsumed := 0, lap := true, vector := vector, threshold := threshold,
                          delay := (halfAt f.entry 12).toNat, unsignalled := 0, timer := none, bound := 0,
                          service := 15 }))))) ∧
      (Takes s f rest 11 →
        (id = 0 ∨ 9 ≤ id → Completes .deleteCq s f rest .badId 0 s) ∧
          (id = q.val →
            (x.state = .absent → Completes .deleteCq s f rest .notFound 0 s) ∧
              (x.state ≠ .absent → x.bound ≠ 0 → Completes .deleteCq s f rest .inUse 0 s) ∧
              (x.state ≠ .absent → x.bound = 0 →
                Completes .deleteCq s f rest .ok 0
                  ((if x.state = .active ∧ 0 < x.unsignalled then s.handOut (.message x.vector) else s).setRing q
                    Ring.none))))

/-! ### Settings -/

/-- SET_REFRESH, SET_SCRUB, SET_LINK_TIMEOUT, SET_DRAIN, CLEAR_ERRORS and SET_MONITOR (R116, R122, R126, R159, R172, R140). A new refresh
interval becomes pending; a new limit comes into force at once where it is no less than the debt less one, and is pending
otherwise, with result 1. -/
def Obligations.SettingsTaken : Prop :=
  ∀ (s : State) (f : Fetched) (rest : List Fetched),
    let interval := (halfAt f.entry 8).toNat
    let limit := (byteAt f.entry 10).toNat
    let e := { s.refresh with pendingInterval := some interval }
    let period := (wordAt f.entry 8).toNat
    let ms := (halfAt f.entry 8).toNat
    let u := s.scrub
    (Takes s f rest 12 →
        (interval < 10 ∨ 156 < interval ∨ 7 < limit → Completes .setRefresh s f rest .badParameter 0 s) ∧
          (10 ≤ interval → interval ≤ 156 → limit ≤ 7 →
            (s.refresh.debt ≤ limit + 1 →
                Completes .setRefresh s f rest .ok 0
                  { s with refresh := { e with limit := limit, pendingLimit := none } }) ∧
              (limit + 1 < s.refresh.debt →
                Completes .setRefresh s f rest .ok 1 { s with refresh := { e with pendingLimit := some limit } }))) ∧
      (Takes s f rest 13 →
        (65535 < period → Completes .setScrub s f rest .badParameter 0 s) ∧
          (period = 0 →
            Completes .setScrub s f rest .ok 0
              { s with scrub := { u with period := 0, timer := none, request := false } }) ∧
          (1 ≤ period → period ≤ 65535 →
            (u.period = 0 → s.memState = .ready →
                Completes .setScrub s f rest .ok 0
                  { s with scrub := { u with period := period, timer := some (period * 10), request := false } }) ∧
              (u.period ≠ 0 →
                Completes .setScrub s f rest .ok 0
                  { s with
                    scrub :=
                      { u with
                        period := period, timer := if u.timer.isSome = true then some (period * 10) else none } }))) ∧
      (Takes s f rest 17 →
        (ms = 0 ∨ 255 < ms → Completes .setLinkTimeout s f rest .badParameter 0 s) ∧
          (1 ≤ ms → ms ≤ 255 →
            Completes .setLinkTimeout s f rest .ok 0 { s with link := { s.link with timeoutMs := ms } })) ∧
      (Takes s f rest 18 →
        (ms = 0 ∨ 255 < ms → Completes .setDrain s f rest .badParameter 0 s) ∧
          (1 ≤ ms → ms ≤ 255 →
            Completes .setDrain s f rest .ok 0 { s with ctl := { s.ctl with deadlineMs := ms } })) ∧
      (Takes s f rest 15 →
        Completes .clearErrors s f rest .ok (BitVec.ofNat 32 s.health.lines.length)
          { s with health := { s.health with lines := [], overflow := 0 } }) ∧
      (Takes s f rest 16 →
        let m := s.monitor
        let code := (byteAt f.entry 8).toNat
        let window := (byteAt f.entry 9).toNat
        let grace := (halfAt f.entry 10).toNat
        let bad := (15 < code ∧ code ≠ 255) ∨ (code ≤ 15 ∧ (7 < window ∨ grace = 0 ∨ 1000 < grace))
        (bad → Completes .setMonitor s f rest .badParameter 0 s) ∧
          (¬bad →
            (m.state = .alert → Completes .setMonitor s f rest .wrongState 0 s) ∧
              (m.state ≠ .alert → code ≤ 15 →
                Completes .setMonitor s f rest .ok (m.beat.setWidth 32)
                  { s with
                    monitor :=
                      { m with
                        periodCode := some code, window := window, grace := grace, state := .armed, elapsed := some 0,
                        graceLeft := none } }) ∧
              (m.state = .armed → code = 255 →
                Completes .setMonitor s f rest .ok (m.beat.setWidth 32)
                  { s with monitor := { m with periodCode := none, state := .disarmed, elapsed := none } }) ∧
              (m.state = .disarmed → code = 255 →
                Completes .setMonitor s f rest .ok (m.beat.setWidth 32) { s with monitor := { m with periodCode := none } })))

/-- CLAIM_RETAINED and DISCARD_RETAINED (R22, R164): the entries freed, the record claimed, retained-pending cleared, and
the sequence number as result. -/
def Obligations.RecoveryCommands : Prop :=
  ∀ (s : State) (f : Fetched) (rest : List Fetched),
    let resolved := fun (frees : Partition → Bool) =>
      { s with
        partitions := tabulate 16 fun i =>
          if (s.part i).state ≠ .free ∧ frees (s.part i) = true then
            { state := .free, base := 0, length := 0, mask := 0, cls := .discard,
              generation := (s.part i).generation, torn := false, refs := 0, writeRefs := 0 }
          else s.part i
        ctl := { s.ctl with retainedPending := false, record := { s.ctl.record with claimed := true } } }
    (s.ctl.retainedPending = false →
        (Takes s f rest 21 → Completes .claimRetained s f rest .notRetained 0 s) ∧
          (Takes s f rest 22 → Completes .discardRetained s f rest .notRetained 0 s)) ∧
      (s.ctl.retainedPending = true →
        (Takes s f rest 21 →
            Completes .claimRetained s f rest .ok s.ctl.record.sequence (resolved fun p => p.cls == .discard)) ∧
          (Takes s f rest 22 →
            Completes .discardRetained s f rest .ok s.ctl.record.sequence (resolved fun _ => true)))

/-! ### Descriptors in slots -/

/-- SLOT_SCHEDULER_CHOICE (R33 to R35, R51, R53, R37): into the lowest-numbered IDLE slot, from the class of R34 and the
channel of R35, the oldest fetched descriptor; it fails its field tests, is carried out as a MARK, or waits in CHECK. -/
def Obligations.SlotSchedulerChoice : Prop :=
  ∀ (s : State) (k : Fin 4) (c : Fin 16) (cls : ChannelClass), s.power.core = true → s.EntryLaw →
    let x := s.chan c
    let elig := fun d : Fin 16 =>
      ((s.ctl.op = .active ∧ (s.chan d).state = .running) ∨
          (s.ctl.op = .quiescing ∧ (s.chan d).state ≠ .absent ∧ (s.chan d).state ≠ .deleting ∧
            (s.ring (s.chan d).ring).state ≠ .faulted)) ∧
        (s.chan d).queue ≠ [] ∧ (s.chan d).slot = none ∧ (s.chan d).held.length < 4
    let inClass := fun (g : ChannelClass) (d : Fin 16) => elig d ∧ (s.chan d).cls = g
    let turn := if cls = .urgent then s.sched.urgent else s.sched.bulk
    let keeps := inClass cls turn.pointer ∧ 0 < turn.credit
    (s.slot k).state = .idle → (∀ j, j < k → (s.slot j).state ≠ .idle) →
    inClass cls c → (cls = .urgent ∨ ∀ d, ¬inClass .urgent d) →
    ((keeps ∧ c = turn.pointer) ∨
      (¬keeps ∧
        ∀ d, inClass cls d → (c.val + 15 - turn.pointer.val) % 16 ≤ (d.val + 15 - turn.pointer.val) % 16)) →
    ∀ f ∈ x.queue.head?,
      let r := f.entry
      let after : Turn :=
        if keeps then { turn with credit := turn.credit - 1 } else { pointer := c, credit := x.weight - 1 }
      let u :=
        { (s.setChan c { x with queue := x.queue.drop 1, slot := some k }).setSlot k
            { Slot.none with
              state := .check, entry := r, chan := c, headAfter := f.headAfter, cls := x.cls, crc := 0xFFFFFFFF#32 } with
          sched := if cls = .urgent then { s.sched with urgent := after } else { s.sched with bulk := after } }
      let lengthOk := 1 ≤ descLength r ∧ descLength r ≤ 16777216
      (descKind r = none → Concludes .slotSchedulerChoice s (endSlot u k .badKind)) ∧
        (descKind r = some .mark →
          Concludes .slotSchedulerChoice s
            (endSlot
              (u.setChan c { u.chan c with mark := if x.clean = true then wordAt r 40 else x.mark, clean := true }) k
              (if x.clean = true then .ok else .markBroken))) ∧
        (descKind r ≠ none → descKind r ≠ some .mark →
          (¬lengthOk → Concludes .slotSchedulerChoice s (endSlot u k .badLength)) ∧
            (lengthOk → Concludes .slotSchedulerChoice s u))

/-- PRESENTATION (R6, R52): the first failing test ends the descriptor with its status and no reference; when every test
passes the references are counted, and the slot enters RUN and asks for what its kind begins with (R57 to R62). -/
def Obligations.PresentationAnswered : Prop :=
  ∀ (s : State) (k : Fin 4) (kind : Kind), s.power.core = true → s.EntryLaw →
    let sl := s.slot k
    let r := sl.entry
    let len := descLength r
    let a := checkRef s (refA r) sl.chan kind.writes len
    let b := checkRef s (refB r) sl.chan false len
    let copy := kind = .copy
    let meets := rangeA s sl < rangeB s sl + len ∧ rangeB s sl < rangeA s sl + len
    let named := fun (g : BufferRef) (i : Fin 16) => g.partition.toNat = i.val
    sl.state = .check → descKind r = some kind → kind ≠ .mark →
    (∀ st ∈ a, Concludes (.presentation k) s (endSlot s k st)) ∧
      (a = none → copy → ∀ st ∈ b, Concludes (.presentation k) s (endSlot s k st)) ∧
      (a = none → copy → b = none → meets → Concludes (.presentation k) s (endSlot s k .overlap)) ∧
      (a = none → (copy → b = none ∧ ¬meets) → 1 ≤ len → sl.bytesDone = 0 → sl.nextPiece = 0 → sl.inHand = [] →
        sl.ops = [] → sl.port = .none →
        let n := pieceLength s sl 0
        let run := { sl with state := .run, refs := if copy then HeldRefs.ab else .a }
        let reads := fun from' : Nat =>
          { run with
            ops := [{ kind := .read, pos := 0, addr := from', len := n }], port := .waiting, nextPiece := n }
        let next :=
          match kind with
          | .writeIn | .mark => run
          | .fill =>
            { run with
              inHand :=
                [{ pos := 0, data := (List.range n).map fun j => (longAt r 40).extractLsb' (8 * (j % 8)) 8 }]
              ops := writeOps 0 (rangeA s sl) n, port := .waiting, nextPiece := n }
          | .readOut | .checksum => reads (rangeA s sl)
          | .copy => reads (rangeB s sl)
        Concludes (.presentation k) s
          ({ s with
              partitions := tabulate 16 fun i =>
                { s.part i with
                  refs :=
                    (s.part i).refs + (if named (refA r) i then 1 else 0) +
                      (if copy ∧ named (refB r) i then 1 else 0)
                  writeRefs := (s.part i).writeRefs + (if named (refA r) i ∧ kind.writes = true then 1 else 0) } }.setSlot
            k next))

/-- A slot given a stop request (R72 to R75): an IDLE slot takes none; a slot in CHECK ends at once; one in RUN orphans its
reads, keeps the deliveries of R73 for its kind and finishes; one in ENDING keeps a failure taken first, lets TERMINATED
replace ABORTED, and keeps SILENT. How a slot moves on: in RUN it ends where every byte is delivered, asks for the next
operation of its piece, or begins its next piece in the way of its kind (R57 to R62); in ENDING it waits for the operation
in progress, asks for those of the deliveries left to it, and ends (R68). The pieces kept are those that follow, with no
gap, the bytes delivered (R65, R73). That a slot under SILENT holds ABORTED is the model's choice (log entry 20). -/
def Obligations.SlotsStopAndMoveOn : Prop :=
  (∀ (d : Nat) (ps : List Piece),
      contiguous d ps =
        match ps with
        | [] => []
        | p :: rest => if p.pos = d then p :: contiguous (d + p.data.length) rest else []) ∧
    ∀ (s : State) (k : Fin 4) (q : StopRequest), q ≠ .none →
      let sl := s.slot k
      let kind := descKind sl.entry
      let t := stopSlot s k q
      let v := advanceSlot s k
      let st : Status := if q = .terminated then .terminated else .aborted
      let orphaned : State :=
        { s with
          link :=
            { s.link with
              tags := tabulate 16 fun g =>
                { s.tag g with
                  orphan :=
                    (s.tag g).orphan || ((s.tag g).state == .waiting && (s.tag g).holder == .slot k) } } }
      let stopped := { sl with state := .ending, stop := q, cause := .status st }
      let ends := fun y : Slot => t = advanceSlot (orphaned.setSlot k y) k
      let n := pieceLength s sl sl.nextPiece
      let begun := { sl with nextPiece := sl.nextPiece + n, port := .waiting }
      let reads := fun from' : Nat =>
        v = s.setSlot k
          { begun with ops := [{ kind := .read, pos := sl.nextPiece, addr := from' + sl.nextPiece, len := n }] }
      let writes := fun p : Piece =>
        v = s.setSlot k
          { sl with ops := writeOps p.pos (rangeA s sl + p.pos) p.data.length, port := .waiting }
      (sl.state = .idle → t = s ∧ v = s) ∧
        (sl.state = .check →
          t = endSlot (s.setSlot k { sl with stop := q }) k st ∧ v = s) ∧
        (sl.state = .run →
          (kind = some .writeIn →
              ends { stopped with inHand := contiguous sl.bytesDone sl.inHand, reads := 0 }) ∧
            (kind = some .fill →
              let begins := sl.port = .inProgress ∨ ∃ o ∈ sl.ops.head?, o.pos ≠ sl.bytesDone
              (begins → ends stopped) ∧ (¬begins → ends { stopped with ops := [], inHand := [], port := .none })) ∧
            (kind = some .copy ∨ kind = some .readOut ∨ kind = some .checksum →
              let asks := sl.port ≠ .inProgress ∧ ∃ o ∈ sl.ops.head?, o.kind = .read
              (asks → ends { stopped with ops := [], port := .none }) ∧ (¬asks → ends stopped)) ∧
            (descLength sl.entry ≤ sl.bytesDone →
              v = endSlot (s.setSlot k { sl with state := .ending, cause := .complete }) k .ok) ∧
            (sl.bytesDone < descLength sl.entry →
              (sl.port ≠ .none → v = s) ∧
                (sl.port = .none → sl.ops ≠ [] → v = s.setSlot k { sl with port := .waiting }) ∧
                (sl.port = .none → sl.ops = [] →
                  (kind = some .writeIn →
                      (∀ p ∈ sl.inHand.head?, p.pos = sl.bytesDone → writes p) ∧
                        ((∀ p ∈ sl.inHand.head?, p.pos ≠ sl.bytesDone) → v = s)) ∧
                    (kind = some .readOut ∨ kind = some .checksum → reads (rangeA s sl)) ∧
                    (kind = some .copy → reads (rangeB s sl)) ∧
                    (kind = some .fill → sl.nextPiece = sl.bytesDone →
                      v = s.setSlot k
                        { begun with
                          inHand :=
                            [{ pos := sl.nextPiece
                               data := (List.range n).map fun j =>
                                 (longAt sl.entry 40).extractLsb' (8 * ((sl.nextPiece + j) % 8)) 8 }]
                          ops := writeOps sl.nextPiece (rangeA s sl + sl.nextPiece) n })))) ∧
        (sl.state = .ending →
          t =
              s.setSlot k
                { sl with
                  stop := if sl.stop = .silent then .silent else q
                  cause :=
                    if sl.stop ≠ .silent ∧ sl.cause = .status .aborted ∧ q = .terminated then .status .terminated
                    else sl.cause } ∧
            (sl.port = .inProgress → v = s) ∧
            (sl.port ≠ .inProgress → sl.ops ≠ [] → v = s.setSlot k { sl with port := .waiting }) ∧
            (sl.port ≠ .inProgress → sl.ops = [] → ∀ p ∈ sl.inHand.head?, p.pos = sl.bytesDone → writes p) ∧
            (sl.port ≠ .inProgress → sl.ops = [] → sl.inHand = [] →
              v =
                endSlot s k
                  (match sl.cause with
                    | .status x => x
                    | .none | .complete => .ok)))

/-- READ_BURST (R56, R59, R60, R62, R66, R103, R104): the data, or the part of it before the lowest uncorrectable word,
reaches the slot in the way of its kind, and every word read is reported to the Health Store. What a word never written
reads as, a shorter list of findings, and the bytes done of a COPY whose piece begins inside the failing word after bytes of
that word have been delivered, are the model's choices (log entries 5, 21 and 28). -/
def Obligations.ReadBurstDelivered : Prop :=
  ∀ (s : State) (k : Fin 4) (o : SlotOp) (findings : List Finding), s.power.core = true → s.EntryLaw →
    let sl := s.slot k
    s.port.holder = .slot k → sl.port = .inProgress → sl.ops.head? = some o → o.kind = .read → 1 ≤ o.len →
    (o.addr + o.len + 7) / 8 * 8 ≤ s.capacity.bytes →
    let words := (wordAddresses o.addr o.len).zipIdx.map fun w => (w.1, findings.getD w.2 Finding.asWritten)
    let delivered := words.flatMap fun w =>
      match w.2.data with
      | some d => leBytes 8 d.toNat
      | none => Memory.readBytes s.mem w.1 8
    let all := (delivered.drop (o.addr % 8)).take o.len
    let bad := words.find? fun w => w.2.condition == .uncorrectable
    let good := match bad with
      | none => all
      | some w => all.take (w.1 - o.addr)
    let u := { s with port := { s.port with holder := .none } }
    let y :=
      if bad = none then { sl with port := .none, ops := [] }
      else
        { sl with
          port := .none, ops := [], state := .ending, reads := 0
          cause := if sl.cause = .none then .status .mediaError else sl.cause }
    let done := fun v : State => Concludes (.readBurst findings) s (reportFindings (advanceSlot v k) words)
    (descKind sl.entry = some .readOut →
        done
          ((if good = [] then u
            else u.handOut (.write (longAt sl.entry 32 + BitVec.ofNat 64 o.pos) good)).setSlot k
            { y with bytesDone := sl.bytesDone + good.length })) ∧
      (descKind sl.entry = some .checksum →
        done (u.setSlot k { y with bytesDone := sl.bytesDone + good.length, crc := good.foldl crcByte sl.crc })) ∧
      (descKind sl.entry = some .copy →
        done
          (u.setSlot k
            (if good = [] then y
            else
              { y with
                inHand := [{ pos := o.pos, data := good }]
                ops := writeOps o.pos (rangeA s sl + o.pos) good.length })))

/-- WRITE_BURST and READ_MODIFY_WRITE (R56, R58, R67, R105, R106): the bytes stored, with every other byte as it was, the
piece delivered with its last operation, whole lines reported, and the failure of an uncorrectable word. -/
def Obligations.WritesDelivered : Prop :=
  ∀ (s : State) (k : Fin 4) (o : SlotOp) (rest : List SlotOp) (p : Piece) (more : List Piece) (finding : Finding),
    s.power.core = true → s.EntryLaw → s.MemoryLaw →
    let sl := s.slot k
    s.port.holder = .slot k → sl.port = .inProgress → sl.ops = o :: rest → sl.inHand = p :: more →
    (o.addr + o.len + 7) / 8 * 8 ≤ s.capacity.bytes →
    let data := (p.data.drop (o.pos - p.pos)).take o.len
    let u := { s with port := { s.port with holder := .none } }
    let y :=
      if rest = [] then
        { sl with port := .none, ops := [], inHand := more, bytesDone := p.pos + p.data.length }
      else { sl with port := .none, ops := rest }
    let word := match finding.data with
      | some d => leBytes 8 d.toNat
      | none => Memory.readBytes s.mem (o.addr / 8 * 8) 8
    let merged := word.take (o.addr % 8) ++ data ++ word.drop (o.addr % 8 + data.length)
    let ws := [(o.addr / 8 * 8, finding)]
    let stored := fun (v : State) (from' : Nat) (bytes : List Byte) =>
      ∀ a, Memory.read v.mem a =
        if from' ≤ a ∧ a < from' + bytes.length then bytes.getD (a - from') 0 else Memory.read s.mem a
    (o.kind = .write →
        ∃ t, exec .writeBurst s = .next t ∧ stored t o.addr data ∧
          t.besideGrants =
            (settlePhases
              (removeLines (advanceSlot ({ u with mem := t.mem }.setSlot k y) k)
                (wholeLines o.addr o.len))).besideGrants) ∧
      (o.kind = .rmw → finding.condition ≠ .uncorrectable →
        ∃ t, exec (.readModifyWrite finding) s = .next t ∧ stored t (o.addr / 8 * 8) merged ∧
          t.besideGrants =
            (settlePhases (reportFindings (advanceSlot ({ u with mem := t.mem }.setSlot k y) k) ws)).besideGrants) ∧
      (o.kind = .rmw → finding.condition = .uncorrectable →
        Concludes (.readModifyWrite finding) s
          (reportFindings
            (advanceSlot
              ((orphanReads u k).setSlot k
                { sl with
                  port := .none, ops := [], inHand := [], reads := 0, bytesDone := o.pos, state := .ending
                  cause := if sl.cause = .none then .status .mediaError else sl.cause })
              k)
            ws))

/-! ### The array -/

/-- REFRESH and INTERVAL_EXPIRY (R113 to R117): the debt falls at a refresh and a pending limit comes into force; it rises
at an expiry up to the limit plus one, where an overrun is counted and raised; the timer starts again with the pending
interval, if there is one. That an expiry lets the time left pass is the model's choice (log entry 8). -/
def Obligations.RefreshCounted : Prop :=
  ∀ s : State, s.power.core = true → s.EntryLaw →
    let e := s.refresh
    (s.port.holder = .refreshEngine →
        Reaches .refresh s
          { s with
            refresh :=
              if e.pendingLimit = some (e.debt - 2) ∧ 2 ≤ e.debt then
                { e with debt := e.debt - 1, limit := e.debt - 2, pendingLimit := none }
              else { e with debt := e.debt - 1 } }) ∧
      ∀ left ∈ e.timer,
        let u := s.elapse left
        let again := fun r : RefreshEngine =>
          { r with
            interval := e.pendingInterval.getD e.interval, pendingInterval := none
            timer := some (e.pendingInterval.getD e.interval) }
        (e.debt ≤ e.limit →
            Reaches .intervalExpiry s { u with refresh := again { u.refresh with debt := e.debt + 1 } }) ∧
          (e.limit < e.debt →
            let v :=
              { u with health := { u.health with overrun := min 65535 (u.health.overrun + 1) } }.raise .refreshOverrun
            Reaches .intervalExpiry s { v with refresh := again u.refresh })

/-- SCRUB_TICK and SCRUB_LINE (R107, R119, R121, R125): a tick asks for a line or counts a deferral; a line's words are
reported, it is written back where a word was corrected and none was uncorrectable, and the pointer moves on. That a tick
lets the time left pass, and what a shorter list of findings means, are the model's choices (log entries 8 and 21). -/
def Obligations.ScrubPatrol : Prop :=
  ∀ (s : State) (findings : List Finding), s.power.core = true → s.EntryLaw → s.MemoryLaw →
    let a := s.scrub.pointer
    let words := (wordAddresses a 64).zipIdx.map fun w => (w.1, (findings.take 8).getD w.2 Finding.asWritten)
    let bytes := words.flatMap fun w =>
      match w.2.data with
      | some d => leBytes 8 d.toNat
      | none => Memory.readBytes s.mem w.1 8
    let writes :=
      (words.any fun w => w.2.condition == .corrected) && words.all fun w => w.2.condition != .uncorrectable
    let u :=
      { s with
        scrub := { s.scrub with request := false, pointer := if s.capacity.bytes ≤ a + 64 then 0 else a + 64 } }
    (∀ left ∈ s.scrub.timer,
        let v := s.elapse left
        (s.scrub.request = true →
            exec .scrubTick s =
              .next
                { v with
                  scrub := { v.scrub with timer := some (s.scrub.period * 10) }
                  health := { v.health with deferral := min 65535 (v.health.deferral + 1) } }) ∧
          (s.scrub.request = false →
            Reaches .scrubTick s
              { v with scrub := { v.scrub with timer := some (s.scrub.period * 10), request := true } })) ∧
      (s.port.holder = .scrubUnit → a + 64 ≤ s.capacity.bytes →
        ∃ t, exec (.scrubLine findings) s = .next t ∧
          (∀ b, Memory.read t.mem b =
            if writes = true ∧ a ≤ b ∧ b < a + bytes.length then bytes.getD (b - a) 0 else Memory.read s.mem b) ∧
          t.besideGrants =
            (reportFindings
              { u with
                mem := t.mem
                health :=
                  if writes = true then { u.health with lines := u.health.lines.filter fun l => l != a } else u.health }
              words).besideGrants)

/-- SELF_REFRESH_ENTRY and SELF_REFRESH_EXIT (R110, R111, R160, R161, R163): the record that replaces the old one, and the
return to ACTIVE with retained-pending set, where a trigger that stands starts a drain at once. Which of several triggers
is taken is left open (log entry 3), and what the working record holds outside a drain is the model's choice (log entry
17). -/
def Obligations.SelfRefreshSteps : Prop :=
  ∀ s : State, s.power.core = true →
    (s.port.holder = .selfRefreshEntry →
        exec .selfRefreshEntry s =
          .next
            ({ s with
              port := { s.port with holder := .none }, memState := .selfRefresh, admin := Admin.none
              ctl :=
                { s.ctl with
                  op := .retained, phase := .none, working := .invalid
                  record :=
                    { s.ctl.working with
                      valid := true, sequence := s.ctl.record.sequence + 1, claimed := false
                      partitions := tabulate 16 fun i => { s.part i with refs := 0, writeRefs := 0 }
                      overrun := s.health.overrun, lines := s.health.lines } } }.raise .retentionEntered)) ∧
      (s.port.holder = .selfRefreshExit →
        (s.power.pwrWarn = false → s.link.up = true → s.ctl.resetInExit = false → s.port.entryRequest = false →
            Concludes .selfRefreshExit s
              { s with
                port := { s.port with holder := .none }, memState := .ready
                refresh := { s.refresh with debt := 1, timer := some s.refresh.interval }
                scrub :=
                  { s.scrub with
                    timer := if s.scrub.period = 0 then none else some (s.scrub.period * 10), request := false }
                monitor :=
                  if s.monitor.state = .tripped then { s.monitor with state := .disarmed } else s.monitor
                ctl := { s.ctl with op := .active, retainedPending := true }
                admin :=
                  { Admin.none with base := s.adminRing.submissionBase, size := s.adminRing.size.toNat }
                rings :=
                  s.rings.set 0
                    { state := .active, base := s.adminRing.completionBase, size := s.adminRing.size.toNat,
                      write := 0, unconsumed := 0, lap := true, vector := 1, threshold := 1, delay := 0,
                      unsignalled := 0, timer := none, bound := 0, service := 15 } }) ∧
          (s.power.pwrWarn = true ∨ s.link.up = false ∨ s.ctl.resetInExit = true →
            ∃ t, exec .selfRefreshExit s = .next t ∧
              let p := { s with ctl := { s.ctl with retainedPending := true } }
              (s.power.pwrWarn = true ∧ DrainBegun p t .powerWarn s.time.micros) ∨
                (s.link.up = false ∧ DrainBegun p t .linkDown s.time.micros) ∨
                (s.ctl.resetInExit = true ∧ DrainBegun p t .linkReset s.time.micros)))

/-- The Health Store takes the report of a read (R104, R123, R124): one count for each corrected and each uncorrectable
word, each line with an uncorrectable word offered once in ascending order, the lines that are absent joined at the tail
while there is room and counted as overflow beyond it, and ERROR_LIST_ADDED raised where a line joined. A line written
whole leaves the list and lowers no counter (R125). -/
def Obligations.HealthReports : Prop :=
  (∀ (s : State) (ws : List (Nat × Finding)), s.HealthLaw → ws.Pairwise (fun v w => v.1 < w.1) →
      let h := s.health
      let t := reportFindings s ws
      let count := fun k : WordCondition => (ws.filter fun w => w.2.condition == k).length
      let absent := (badLines ws).filter fun a => !h.lines.contains a
      let room := 8 - h.lines.length
      t.health =
          { h with
            correctable := min 4294967295 (h.correctable + count .corrected)
            uncorrectable := min 4294967295 (h.uncorrectable + count .uncorrectable)
            lines := h.lines ++ absent.take room
            overflow := min 255 (h.overflow + (absent.length - room)) } ∧
        (∀ c, t.events.has c = (s.events.has c || decide (c = .errorListAdded ∧ absent ≠ [] ∧ 0 < room))) ∧
        t = { s with
              health := t.health, events := { s.events with causes := t.events.causes }
              link := { s.link with outbound := t.link.outbound } }) ∧
    ∀ (s : State) (written : List Nat),
      let t := removeLines s written
      (∀ a, a ∈ t.health.lines ↔ a ∈ s.health.lines ∧ a ∉ written) ∧ t.health.lines.Sublist s.health.lines ∧
        t = { s with health := { s.health with lines := t.health.lines } }

/-- How a deletion ends (R44): an empty deleting channel becomes ABSENT, its ring's bound count falls by one, and the
DELETE_CHANNEL completion carries the channel's completed count. How a quiesce ends (R46, R153): a channel becomes ABSENT
when it is empty and holds no read; when every channel is ABSENT and no command is in execution, the vectors of
unsignalled entries are sent, every ring and the admin ring go, and the state is STANDBY. The ascending order of those
vectors, and that an orphaned read counts, are the model's (log entries 15 and 16). -/
def Obligations.DeletionAndQuiesceEnd : Prop :=
  ∀ (s : State) (c : Fin 16),
    let empty := fun d : Fin 16 => (s.chan d).queue = [] ∧ (s.chan d).slot = none ∧ (s.chan d).held = []
    let goes := fun d : Fin 16 =>
      (s.chan d).state ≠ .absent ∧ (s.chan d).state ≠ .deleting ∧ empty d ∧
        (s.fetchOf d = .empty ∨ s.fetchOf d = .requesting)
    let t := quiesceStep s
    let done := (∀ d, (s.chan d).state = .absent ∨ goes d) ∧ s.admin.processor ≠ .executing
    ((∀ p ∈ s.admin.command, ∀ d, p.wait ≠ .channelEmpty d) ∨ (s.ctl.op ≠ .active ∧ s.ctl.op ≠ .quiescing) →
        endDeletion s = s) ∧
      (∀ p ∈ s.admin.command, p.wait = .channelEmpty c → s.ctl.op = .active ∨ s.ctl.op = .quiescing →
        ((s.chan c).state ≠ .deleting ∨ ¬empty c → endDeletion s = s) ∧
          ((s.chan c).state = .deleting → empty c →
            let q := (s.chan c).ring
            endDeletion s =
              { (((s.setChan c Channel.none).setRing q { s.ring q with bound := (s.ring q).bound - 1 }).setFetch c
                  (s.fetchOf c).orphan) with
                admin :=
                  { s.admin with
                    command := some { p with wait := .none }
                    handover :=
                      some
                        { tag := recordTag p.entry, bytesDone := 0, result := (s.chan c).completed, channel := 0,
                          status := .ok, head := p.headAfter, notify := false } } })) ∧
      (s.ctl.op ≠ .quiescing → t = s) ∧
      (s.ctl.op = .quiescing →
        (∀ d, t.chan d = if goes d then Channel.none else s.chan d) ∧
          (¬done →
            t.ctl = s.ctl ∧ t.admin = s.admin ∧ t.link = s.link ∧
              ∀ q, t.ring q =
                { s.ring q with
                  bound :=
                    (s.ring q).bound - (allChannels.filter fun d => decide (goes d ∧ (s.chan d).ring = q)).length }) ∧
          (done →
            t.ctl = { s.ctl with op := .standby } ∧ t.admin = Admin.none ∧ t.adminFetch = s.adminFetch.orphan ∧
              (∀ q, t.ring q = Ring.none) ∧
              (s.link.up = true → s.link.messageEnable = true →
                t.link.outbound =
                  s.link.outbound ++
                    (allRings.filter fun q =>
                      decide ((s.ring q).state = .active ∧ 0 < (s.ring q).unsignalled)).map fun q =>
                        .message (s.ring q).vector)) ∧
          t.mem = s.mem ∧ t.partitions = s.partitions ∧ t.slots = s.slots)

/-! ### Host reads -/

/-- The ends of a host read (R170, R171): a part that does not complete it is kept; its data, an error return or a timeout
reaches the holder: a slot in RUN (R57, R65, R73), the admin ring (R132, R133), a channel (R29, R30). An orphaned read, and
in a drain any read of a ring, changes nothing but the tag and the fetch record, which becomes empty (R31, R71, R132,
R133); a failure reaching a slot that has left RUN is not taken (R65, R68). A timeout quarantines the tag for the read's
own timeout; a quarantine's end frees it and grants it again. That bytes beyond the read's length are dropped, and that an
expiry lets the time left pass, are the model's choices (log entries 8 and 12). -/
def Obligations.HostReadsEnd : Prop :=
  ∀ (s : State) (g : Fin 16) (bytes : List Byte), s.power.core = true → s.EntryLaw →
    let x := s.tag g
    let all := x.data ++ bytes
    let data := all.take x.len
    let freed := s.setTag g Tag.none
    let working := s.ctl.op = .active ∨ s.ctl.op = .quiescing
    let taken := fun (n : Nat) (head : Nat) =>
      (List.range n).map fun j =>
        ({ entry := BitVec.ofNat 512 (leValue ((data.drop (64 * j)).take 64)), headAfter := head } : Fetched)
    let lives := fun k => x.holder = .slot k ∧ x.orphan = false ∧ (s.slot k).state = .run
    let gone := fun k => x.holder = .slot k ∧ (x.orphan = true ∨ (s.slot k).state ≠ .run)
    let dropped := fun (i : Instr) (u : State) =>
      (∀ k, gone k → Concludes i s u) ∧
        (∀ c n, x.holder = .channel c → s.fetchOf c = .orphaned n ∨ (s.fetchOf c = .inFlight n ∧ ¬working) →
          Concludes i s (u.setFetch c .empty)) ∧
        ∀ n, x.holder = .admin → s.adminFetch = .orphaned n ∨ (s.adminFetch = .inFlight n ∧ ¬working) →
          Concludes i s { u with adminFetch := .empty }
    let fails := fun (i : Instr) (u : State) =>
      dropped i u ∧
        (∀ k, lives k → descKind (s.slot k).entry = some .writeIn →
          let sl := s.slot k
          let orphaned : State :=
            { u with
              link :=
                { u.link with
                  tags := tabulate 16 fun f =>
                    { u.tag f with
                      orphan := (u.tag f).orphan || ((u.tag f).state == .waiting && (u.tag f).holder == .slot k) } } }
          Concludes i s
            (advanceSlot
              (orphaned.setSlot k
                { sl with
                  state := .ending, cause := .status .hostReadError, reads := 0
                  inHand := contiguous sl.bytesDone sl.inHand })
              k)) ∧
        (∀ c n, x.holder = .channel c → s.fetchOf c = .inFlight n → working →
          let y := s.chan c
          Concludes i s
            (((u.setChan c (if y.state = .running ∨ y.state = .paused then { y with state := .halted } else y)).setFetch c
                .empty).raise .fetchError)) ∧
        ∀ n, x.holder = .admin → s.adminFetch = .inFlight n → working →
          let a := s.admin
          Concludes i s
            ({ u with
                adminFetch := .empty
                admin :=
                  match a.processor with
                  | .idle => { a with processor := .halted }
                  | .executing => { a with haltAfter := true }
                  | .halted => a }.raise .adminFault)
    (x.state = .waiting → s.link.up = true →
        (all.length < x.len → exec (.hostReadData g bytes) s = .next (s.setTag g { x with data := all })) ∧
          (x.len ≤ all.length →
            dropped (.hostReadData g bytes) freed ∧
              (∀ k, lives k →
                let sl := s.slot k
                Concludes (.hostReadData g bytes) s
                  (advanceSlot
                    (freed.setSlot k
                      { sl with
                        reads := sl.reads - 1
                        inHand :=
                          sl.inHand.takeWhile (fun p => decide (p.pos ≤ x.pos)) ++
                            { pos := x.pos, data := data } :: sl.inHand.dropWhile fun p => decide (p.pos ≤ x.pos) })
                    k)) ∧
              (∀ c n, x.holder = .channel c → s.fetchOf c = .inFlight n → working →
                let y := s.chan c
                let head := (y.head + n) % y.size
                Concludes (.hostReadData g bytes) s
                  ((freed.setChan c { y with head := head, queue := y.queue ++ taken n head }).setFetch c .empty)) ∧
              ∀ n, x.holder = .admin → s.adminFetch = .inFlight n → working →
                let head := (s.admin.head + n) % s.admin.size
                Concludes (.hostReadData g bytes) s
                  { freed with
                    adminFetch := .empty
                    admin := { s.admin with head := head, queue := s.admin.queue ++ taken n head } }) ∧
          fails (.readErrorReturn g) freed) ∧
      (x.state = .waiting →
        fails (.linkReadTimeout g)
          ((s.elapse x.left).setTag g { x with state := .quarantined, data := [], left := x.timeoutMs * 10000 })) ∧
      (x.state = .quarantined →
        let u := (s.elapse x.left).setTag g Tag.none
        ∃ t, exec (.quarantineEnd g) s = .next t ∧ t = settleLink u ∧ (t.tag g).state ≠ .quarantined ∧
          t.besideTags = u.besideTags)

/-! ### The Completion Writer and the phases of a drain -/

/-- What one completion written does (R70, R80 to R83, R88, R134, R179): the entry's 16 bytes, the ring's counts and lap,
the vector or the delay timer, and where the completion came from; the delay timer's expiry (R89); a discard for a FAULTED
ring (R87); and a fetched descriptor that ends ABORTED (R44). That an expiry lets the time left pass is the model's choice
(log entry 8). -/
def Obligations.CompletionsWritten : Prop :=
  ∀ (s : State) (r : Fin 9) (c : Fin 16), s.power.core = true → s.EntryLaw →
    let x := s.ring r
    let room := x.state = .active ∧ x.unconsumed < x.size
    let working := s.ctl.op = .active ∨ s.ctl.op = .quiescing
    let waits := fun d : Fin 16 => (s.chan d).ring = r ∧ (s.chan d).held ≠ []
    let y := s.chan c
    (∀ f ∈ y.held.head?.or s.admin.handover,
        let sends := f.notify = true ∨ x.unsignalled + 1 = x.threshold ∨ x.delay = 0
        let w :=
          s.handOut
            (.write (x.base + BitVec.ofNat 64 (16 * x.write))
              (leBytes 4 f.tag.toNat ++ leBytes 4 f.bytesDone ++ leBytes 4 f.result.toNat ++
                leBytes 4
                  (f.head % 4096 + 2 ^ 15 * x.lap.toNat + 2 ^ 16 * f.status.code + 2 ^ 24 * (f.channel % 256))))
        writeEntry s r f =
          (if sends then w.handOut (.message x.vector) else w).setRing r
            { x with
              write := if x.size ≤ x.write + 1 then 0 else x.write + 1
              lap := if x.size ≤ x.write + 1 then !x.lap else x.lap
              unconsumed := x.unconsumed + 1
              unsignalled := if sends then 0 else x.unsignalled + 1
              timer := if sends then none else some (x.timer.getD (x.delay * 10)) }) ∧
      (working → room →
        (r = 0 → ∀ f ∈ s.admin.handover,
            Concludes (.completionWrite r) s
              (writeEntry
                { s with
                  admin :=
                    { s.admin with
                      handover := none, command := none, haltAfter := false
                      processor := if s.admin.haltAfter = true then .halted else .idle } }
                0 f)) ∧
          (r ≠ 0 → waits c →
            (∀ d, waits d → (c.val + 15 - x.service.val) % 16 ≤ (d.val + 15 - x.service.val) % 16) →
            ∀ f ∈ y.held.head?,
              Concludes (.completionWrite r) s
                (writeEntry
                  ((s.setChan c { y with held := y.held.drop 1 }).setRing r { x with service := c }) r f))) ∧
      (x.state = .active → ∀ left ∈ x.timer,
        let u := s.elapse left
        exec (.delayTimerExpiry r) s =
          .next
            ((u.handOut (.message x.vector)).setRing r { x with unsignalled := 0, timer := none })) ∧
      (working → y.held ≠ [] → (s.ring y.ring).state = .faulted → y.state = .deleting ∨ s.ctl.op = .quiescing →
        Concludes (.completionDiscard (.channel c)) s (s.setChan c { y with held := y.held.drop 1 })) ∧
      (working → s.admin.handover.isSome = true → (s.ring 0).state = .faulted →
        Concludes (.completionDiscard .admin) s
          { s with
            admin :=
              { s.admin with handover := none, command := none, processor := .halted, haltAfter := false } }) ∧
      (working → y.slot = none → y.held.length < 4 →
        y.state = .deleting ∨
          (s.ctl.op = .quiescing ∧ y.state ≠ .absent ∧ (s.ring y.ring).state = .faulted) →
        ∀ f ∈ y.queue.head?,
          Concludes (.deleteConversion c) s
            (s.setChan c
              { y with
                queue := y.queue.drop 1, clean := false, completed := y.completed + 1
                state :=
                  if y.stopOnError = true ∧ (y.state = .running ∨ y.state = .paused) then .halted else y.state
                held :=
                  y.held ++
                    [{ tag := wordAt f.entry 4, bytesDone := 0, result := 0, channel := c.val + 1,
                       status := .aborted, head := f.headAfter, notify := (byteAt f.entry 1).getLsbD 0 }] }))

/-- How the phases of a drain proceed and end, and how every happening ends: with a deletion, a quiesce, STOP and FLUSH that
it completes. In STOP the fetched descriptors of a channel with no slot binding end TERMINATED, oldest first, into its
flush queue and are counted; STOP ends when every slot is IDLE and every fetched queue empty, with FLUSH where the reason,
the link and the deadline let it, and with SETTLE otherwise (R157, R159). FLUSH writes or discards its sequence in order,
channels ascending and the admin completion last, and ends COMPLETE, or with the deadline (R158, R87). SETTLE sends the
vectors of unsignalled entries, leaves no channel and no ring, counts what is left as unflushed and asks for self-refresh
entry (R160). That an empty FLUSH ends at once, that a flush write moves the service pointer, that a deadline's expiry
lets the time left pass, and the ascending order of the vectors are the model's (log entries 8, 14 and 16). -/
def Obligations.DrainPhases : Prop :=
  (∀ s : State,
      settlePhases s = flushStep (stopStep (quiesceStep (endDeletion s))) ∧
        (s.ctl.op ≠ .draining ∨ s.ctl.phase ≠ .stop → stopStep s = s) ∧
        (s.ctl.op ≠ .draining ∨ s.ctl.phase ≠ .flush → flushStep s = s)) ∧
  ∀ (s : State) (c : Fin 16) (r : Fin 9), s.power.core = true → s.EntryLaw → s.ctl.op = .draining →
    let y := s.chan c
    let left := fun (u : State) (d : Fin 16) => (u.chan d).held ++ (u.chan d).flush
    let first := fun f : Completion => (left s c).head? = some f ∧ ∀ d, d < c → left s d = []
    let settled := fun (u t : State) =>
      t.ctl.op = .draining ∧ t.ctl.phase = .settle ∧ t.ctl.deadline = none ∧ t.ctl.adminDone = none ∧
        t.ctl.working.unflushed =
          u.ctl.working.unflushed + (allChannels.map fun d => (left u d).length).sum +
            u.ctl.adminDone.toList.length ∧
        t.ctl.working.outcome = u.ctl.working.outcome ∧ t.ctl.working.adminTag = u.ctl.working.adminTag ∧
        (∀ d, t.chan d = Channel.none) ∧ (∀ q, t.ring q = Ring.none) ∧ t.admin.processor = .idle ∧
        t.admin.command = none ∧ t.admin.queue = [] ∧ t.adminFetch = u.adminFetch.orphan ∧
        (∀ d, t.fetchOf d = (u.fetchOf d).orphan) ∧ t.port.entryRequest = true ∧
        t.ctl.record = u.ctl.record ∧ t.mem = u.mem ∧ t.partitions = u.partitions ∧
        (u.link.up = true → u.link.messageEnable = true →
          t.link.outbound =
            u.link.outbound ++
              (allRings.filter fun q => decide ((u.ring q).state = .active ∧ 0 < (u.ring q).unsignalled)).map fun q =>
                .message (u.ring q).vector) ∧
        ∀ d,
          (t.ctl.working.channels.get d) =
            if (u.ctl.working.channels.get d).existed = true then
              { u.ctl.working.channels.get d with mark := (u.chan d).mark, clean := (u.chan d).clean }
            else u.ctl.working.channels.get d
    let outcome := fun (u : State) (o : FlushOutcome) =>
      { u with ctl := { u.ctl with working := { u.ctl.working with outcome := o } } }
    let flushes := (s.ctl.working.reason = .powerWarn ∨ s.ctl.working.reason = .hostRequest) ∧ s.link.up = true
    let ends := fun d : Fin 16 => if (s.chan d).slot = none then (s.chan d).queue else []
    let u : State :=
      { s with
        channels := tabulate 16 fun d =>
          let x := s.chan d
          { x with
            queue := if x.slot = none then [] else x.queue
            clean := x.clean && decide (ends d = [])
            completed := x.completed + BitVec.ofNat 32 (ends d).length
            state :=
              if ends d ≠ [] ∧ x.stopOnError = true ∧ (x.state = .running ∨ x.state = .paused) then .halted else x.state
            flush :=
              x.flush ++
                (ends d).map fun f =>
                  { tag := wordAt f.entry 4, bytesDone := 0, result := 0, channel := d.val + 1, status := .terminated,
                    head := f.headAfter, notify := (byteAt f.entry 1).getLsbD 0 } }
        ctl :=
          { s.ctl with
            working :=
              { s.ctl.working with
                channels := tabulate 16 fun d =>
                  let e := s.ctl.working.channels.get d
                  { e with terminated := e.terminated + (ends d).length } } } }
    let ready := (∀ k, (s.slot k).state = .idle) ∧ ∀ d, (u.chan d).queue = []
    let popped := s.setChan c { y with held := y.held.drop 1, flush := if y.held = [] then y.flush.drop 1 else y.flush }
    let unflushed := fun v : State =>
      { v with ctl := { v.ctl with working := { v.ctl.working with unflushed := v.ctl.working.unflushed + 1 } } }
    (s.ctl.phase = .stop →
        (¬ready → stopStep s = u) ∧
          (ready → flushes → s.ctl.expired = false → stopStep s = { u with ctl := { u.ctl with phase := .flush } }) ∧
          (ready → flushes → s.ctl.expired = true → settled (outcome u .deadline) (stopStep s)) ∧
          (ready → ¬flushes → settled u (stopStep s))) ∧
      (s.ctl.phase = .flush →
        ((∀ d, left s d = []) → s.ctl.adminDone = none → settled (outcome s .complete) (flushStep s)) ∧
          ((∃ d, left s d ≠ []) ∨ s.ctl.adminDone ≠ none → flushStep s = s) ∧
          settled (outcome s .deadline) (endFlush s .deadline) ∧
          ((s.ring r).state = .active → (s.ring r).unconsumed < (s.ring r).size →
            (∀ f ∈ (left s c).head?, first f → y.ring = r →
                Concludes (.completionWrite r) s
                  (writeEntry (popped.setRing r { s.ring r with service := c }) r f)) ∧
              ((∀ d, left s d = []) → r = 0 → ∀ f ∈ s.ctl.adminDone,
                Concludes (.completionWrite r) s
                  (writeEntry
                    { s with
                      admin :=
                        { s.admin with
                          handover := none, command := none, haltAfter := false
                          processor := if s.admin.haltAfter = true then .halted else .idle }
                      ctl :=
                        { s.ctl with adminDone := none, working := { s.ctl.working with adminTag := none } } }
                    0 f))) ∧
          ((s.ring y.ring).state = .faulted → ∀ f ∈ (left s c).head?, first f →
            Concludes (.completionDiscard (.channel c)) s (unflushed popped)) ∧
          ((s.ring 0).state = .faulted → (∀ d, left s d = []) → s.ctl.adminDone ≠ none →
            Concludes (.completionDiscard .admin) s
              (unflushed { s with ctl := { s.ctl with adminDone := none } }))) ∧
      ∀ remaining ∈ s.ctl.deadline,
        let v := s.elapse remaining
        (s.ctl.phase = .flush → Concludes .drainDeadlineExpiry s (endFlush v .deadline)) ∧
          (s.ctl.phase ≠ .flush →
            Concludes .drainDeadlineExpiry s { v with ctl := { v.ctl with deadline := none, expired := true } })
end

