-- ==== Sys2Proof/Laws/State.lean ====
section
/-! SUPPORT. Small laws of the state: each field and each part of a block after each update, so that no later proof
unfolds a record update. -/

namespace Sys2Proof.Machine

/-! ### Tables given by a function -/

@[simp] theorem tabulate_get {α : Type} {n : Nat} (f : Fin n → α) (i : Fin n) : (tabulate n f).get i = f i := by
  simp [tabulate, Vector.get]
  rfl

theorem vector_ext_get {α : Type} {n : Nat} {v w : Vector α n} (h : ∀ i, v.get i = w.get i) : v = w := by
  apply Vector.ext
  intro i hi
  exact h ⟨i, hi⟩

theorem tabulate_eq {α : Type} {n : Nat} {f g : Fin n → α} (h : ∀ i, f i = g i) : tabulate n f = tabulate n g := by
  rw [funext h]

@[simp] theorem tabulate_of_get {α : Type} {n : Nat} (v : Vector α n) : tabulate n (fun i => v.get i) = v :=
  vector_ext_get fun i => tabulate_get _ i

theorem get_set {α : Type} {n : Nat} (v : Vector α n) (i j : Fin n) (x : α) :
    (v.set i x).get j = if j = i then x else v.get j := by
  show (v.set i x)[j.val] = if j = i then x else v[j.val]
  rw [Vector.getElem_set]
  by_cases h : j = i
  · subst h; simp
  · have hv : i.val ≠ j.val := fun e => h (Fin.ext e.symm)
    simp [h, hv]

@[simp] theorem get_replicate {α : Type} {n : Nat} (a : α) (i : Fin n) : (Vector.replicate n a).get i = a := by
  show (Vector.replicate n a)[i.val] = a
  simp


/-! ### `setPart` -/

@[simp] theorem State.setPart_capacity (s : State) (i : Fin 16) (p : Partition) :
    (s.setPart i p).capacity = s.capacity := rfl
@[simp] theorem State.setPart_power (s : State) (i : Fin 16) (p : Partition) :
    (s.setPart i p).power = s.power := rfl
@[simp] theorem State.setPart_time (s : State) (i : Fin 16) (p : Partition) :
    (s.setPart i p).time = s.time := rfl
@[simp] theorem State.setPart_ctl (s : State) (i : Fin 16) (p : Partition) :
    (s.setPart i p).ctl = s.ctl := rfl
@[simp] theorem State.setPart_channels (s : State) (i : Fin 16) (p : Partition) :
    (s.setPart i p).channels = s.channels := rfl
@[simp] theorem State.setPart_fetch (s : State) (i : Fin 16) (p : Partition) :
    (s.setPart i p).fetch = s.fetch := rfl
@[simp] theorem State.setPart_sched (s : State) (i : Fin 16) (p : Partition) :
    (s.setPart i p).sched = s.sched := rfl
@[simp] theorem State.setPart_slots (s : State) (i : Fin 16) (p : Partition) :
    (s.setPart i p).slots = s.slots := rfl
@[simp] theorem State.setPart_rings (s : State) (i : Fin 16) (p : Partition) :
    (s.setPart i p).rings = s.rings := rfl
@[simp] theorem State.setPart_adminRing (s : State) (i : Fin 16) (p : Partition) :
    (s.setPart i p).adminRing = s.adminRing := rfl
@[simp] theorem State.setPart_admin (s : State) (i : Fin 16) (p : Partition) :
    (s.setPart i p).admin = s.admin := rfl
@[simp] theorem State.setPart_adminFetch (s : State) (i : Fin 16) (p : Partition) :
    (s.setPart i p).adminFetch = s.adminFetch := rfl
@[simp] theorem State.setPart_port (s : State) (i : Fin 16) (p : Partition) :
    (s.setPart i p).port = s.port := rfl
@[simp] theorem State.setPart_memState (s : State) (i : Fin 16) (p : Partition) :
    (s.setPart i p).memState = s.memState := rfl
@[simp] theorem State.setPart_mem (s : State) (i : Fin 16) (p : Partition) :
    (s.setPart i p).mem = s.mem := rfl
@[simp] theorem State.setPart_refresh (s : State) (i : Fin 16) (p : Partition) :
    (s.setPart i p).refresh = s.refresh := rfl
@[simp] theorem State.setPart_scrub (s : State) (i : Fin 16) (p : Partition) :
    (s.setPart i p).scrub = s.scrub := rfl
@[simp] theorem State.setPart_health (s : State) (i : Fin 16) (p : Partition) :
    (s.setPart i p).health = s.health := rfl
@[simp] theorem State.setPart_monitor (s : State) (i : Fin 16) (p : Partition) :
    (s.setPart i p).monitor = s.monitor := rfl
@[simp] theorem State.setPart_events (s : State) (i : Fin 16) (p : Partition) :
    (s.setPart i p).events = s.events := rfl
@[simp] theorem State.setPart_link (s : State) (i : Fin 16) (p : Partition) :
    (s.setPart i p).link = s.link := rfl
@[simp] theorem State.setPart_freeCount (s : State) (i : Fin 16) (p : Partition) :
    (s.setPart i p).freeCount = s.freeCount := rfl
@[simp] theorem State.setPart_pending (s : State) (i : Fin 16) (p : Partition) :
    (s.setPart i p).pending = s.pending := rfl
theorem State.setPart_part (s : State) (i j : Fin 16) (p : Partition) :
    (s.setPart i p).part j = if j = i then p else s.part j := get_set _ _ _ _
@[simp] theorem State.setPart_part_self (s : State) (i : Fin 16) (p : Partition) : (s.setPart i p).part i = p := by
  simp [State.setPart_part]
@[simp] theorem State.setPart_chan (s : State) (i : Fin 16) (p : Partition) (j : Fin 16) :
    (s.setPart i p).chan j = s.chan j := rfl
@[simp] theorem State.setPart_fetchOf (s : State) (i : Fin 16) (p : Partition) (j : Fin 16) :
    (s.setPart i p).fetchOf j = s.fetchOf j := rfl
@[simp] theorem State.setPart_slot (s : State) (i : Fin 16) (p : Partition) (j : Fin 4) :
    (s.setPart i p).slot j = s.slot j := rfl
@[simp] theorem State.setPart_ring (s : State) (i : Fin 16) (p : Partition) (j : Fin 9) :
    (s.setPart i p).ring j = s.ring j := rfl
@[simp] theorem State.setPart_tag (s : State) (i : Fin 16) (p : Partition) (j : Fin 16) :
    (s.setPart i p).tag j = s.tag j := rfl

/-! ### `setChan` -/

@[simp] theorem State.setChan_capacity (s : State) (c : Fin 16) (x : Channel) :
    (s.setChan c x).capacity = s.capacity := rfl
@[simp] theorem State.setChan_power (s : State) (c : Fin 16) (x : Channel) :
    (s.setChan c x).power = s.power := rfl
@[simp] theorem State.setChan_time (s : State) (c : Fin 16) (x : Channel) :
    (s.setChan c x).time = s.time := rfl
@[simp] theorem State.setChan_ctl (s : State) (c : Fin 16) (x : Channel) :
    (s.setChan c x).ctl = s.ctl := rfl
@[simp] theorem State.setChan_partitions (s : State) (c : Fin 16) (x : Channel) :
    (s.setChan c x).partitions = s.partitions := rfl
@[simp] theorem State.setChan_fetch (s : State) (c : Fin 16) (x : Channel) :
    (s.setChan c x).fetch = s.fetch := rfl
@[simp] theorem State.setChan_sched (s : State) (c : Fin 16) (x : Channel) :
    (s.setChan c x).sched = s.sched := rfl
@[simp] theorem State.setChan_slots (s : State) (c : Fin 16) (x : Channel) :
    (s.setChan c x).slots = s.slots := rfl
@[simp] theorem State.setChan_rings (s : State) (c : Fin 16) (x : Channel) :
    (s.setChan c x).rings = s.rings := rfl
@[simp] theorem State.setChan_adminRing (s : State) (c : Fin 16) (x : Channel) :
    (s.setChan c x).adminRing = s.adminRing := rfl
@[simp] theorem State.setChan_admin (s : State) (c : Fin 16) (x : Channel) :
    (s.setChan c x).admin = s.admin := rfl
@[simp] theorem State.setChan_adminFetch (s : State) (c : Fin 16) (x : Channel) :
    (s.setChan c x).adminFetch = s.adminFetch := rfl
@[simp] theorem State.setChan_port (s : State) (c : Fin 16) (x : Channel) :
    (s.setChan c x).port = s.port := rfl
@[simp] theorem State.setChan_memState (s : State) (c : Fin 16) (x : Channel) :
    (s.setChan c x).memState = s.memState := rfl
@[simp] theorem State.setChan_mem (s : State) (c : Fin 16) (x : Channel) :
    (s.setChan c x).mem = s.mem := rfl
@[simp] theorem State.setChan_refresh (s : State) (c : Fin 16) (x : Channel) :
    (s.setChan c x).refresh = s.refresh := rfl
@[simp] theorem State.setChan_scrub (s : State) (c : Fin 16) (x : Channel) :
    (s.setChan c x).scrub = s.scrub := rfl
@[simp] theorem State.setChan_health (s : State) (c : Fin 16) (x : Channel) :
    (s.setChan c x).health = s.health := rfl
@[simp] theorem State.setChan_monitor (s : State) (c : Fin 16) (x : Channel) :
    (s.setChan c x).monitor = s.monitor := rfl
@[simp] theorem State.setChan_events (s : State) (c : Fin 16) (x : Channel) :
    (s.setChan c x).events = s.events := rfl
@[simp] theorem State.setChan_link (s : State) (c : Fin 16) (x : Channel) :
    (s.setChan c x).link = s.link := rfl
@[simp] theorem State.setChan_freeCount (s : State) (c : Fin 16) (x : Channel) :
    (s.setChan c x).freeCount = s.freeCount := rfl
@[simp] theorem State.setChan_pending (s : State) (c : Fin 16) (x : Channel) :
    (s.setChan c x).pending = s.pending := rfl
@[simp] theorem State.setChan_part (s : State) (c : Fin 16) (x : Channel) (j : Fin 16) :
    (s.setChan c x).part j = s.part j := rfl
theorem State.setChan_chan (s : State) (c j : Fin 16) (x : Channel) :
    (s.setChan c x).chan j = if j = c then x else s.chan j := get_set _ _ _ _
@[simp] theorem State.setChan_chan_self (s : State) (c : Fin 16) (x : Channel) : (s.setChan c x).chan c = x := by
  simp [State.setChan_chan]
@[simp] theorem State.setChan_fetchOf (s : State) (c : Fin 16) (x : Channel) (j : Fin 16) :
    (s.setChan c x).fetchOf j = s.fetchOf j := rfl
@[simp] theorem State.setChan_slot (s : State) (c : Fin 16) (x : Channel) (j : Fin 4) :
    (s.setChan c x).slot j = s.slot j := rfl
@[simp] theorem State.setChan_ring (s : State) (c : Fin 16) (x : Channel) (j : Fin 9) :
    (s.setChan c x).ring j = s.ring j := rfl
@[simp] theorem State.setChan_tag (s : State) (c : Fin 16) (x : Channel) (j : Fin 16) :
    (s.setChan c x).tag j = s.tag j := rfl

/-! ### `setFetch` -/

@[simp] theorem State.setFetch_capacity (s : State) (c : Fin 16) (f : FetchRecord) :
    (s.setFetch c f).capacity = s.capacity := rfl
@[simp] theorem State.setFetch_power (s : State) (c : Fin 16) (f : FetchRecord) :
    (s.setFetch c f).power = s.power := rfl
@[simp] theorem State.setFetch_time (s : State) (c : Fin 16) (f : FetchRecord) :
    (s.setFetch c f).time = s.time := rfl
@[simp] theorem State.setFetch_ctl (s : State) (c : Fin 16) (f : FetchRecord) :
    (s.setFetch c f).ctl = s.ctl := rfl
@[simp] theorem State.setFetch_partitions (s : State) (c : Fin 16) (f : FetchRecord) :
    (s.setFetch c f).partitions = s.partitions := rfl
@[simp] theorem State.setFetch_channels (s : State) (c : Fin 16) (f : FetchRecord) :
    (s.setFetch c f).channels = s.channels := rfl
@[simp] theorem State.setFetch_sched (s : State) (c : Fin 16) (f : FetchRecord) :
    (s.setFetch c f).sched = s.sched := rfl
@[simp] theorem State.setFetch_slots (s : State) (c : Fin 16) (f : FetchRecord) :
    (s.setFetch c f).slots = s.slots := rfl
@[simp] theorem State.setFetch_rings (s : State) (c : Fin 16) (f : FetchRecord) :
    (s.setFetch c f).rings = s.rings := rfl
@[simp] theorem State.setFetch_adminRing (s : State) (c : Fin 16) (f : FetchRecord) :
    (s.setFetch c f).adminRing = s.adminRing := rfl
@[simp] theorem State.setFetch_admin (s : State) (c : Fin 16) (f : FetchRecord) :
    (s.setFetch c f).admin = s.admin := rfl
@[simp] theorem State.setFetch_adminFetch (s : State) (c : Fin 16) (f : FetchRecord) :
    (s.setFetch c f).adminFetch = s.adminFetch := rfl
@[simp] theorem State.setFetch_port (s : State) (c : Fin 16) (f : FetchRecord) :
    (s.setFetch c f).port = s.port := rfl
@[simp] theorem State.setFetch_memState (s : State) (c : Fin 16) (f : FetchRecord) :
    (s.setFetch c f).memState = s.memState := rfl
@[simp] theorem State.setFetch_mem (s : State) (c : Fin 16) (f : FetchRecord) :
    (s.setFetch c f).mem = s.mem := rfl
@[simp] theorem State.setFetch_refresh (s : State) (c : Fin 16) (f : FetchRecord) :
    (s.setFetch c f).refresh = s.refresh := rfl
@[simp] theorem State.setFetch_scrub (s : State) (c : Fin 16) (f : FetchRecord) :
    (s.setFetch c f).scrub = s.scrub := rfl
@[simp] theorem State.setFetch_health (s : State) (c : Fin 16) (f : FetchRecord) :
    (s.setFetch c f).health = s.health := rfl
@[simp] theorem State.setFetch_monitor (s : State) (c : Fin 16) (f : FetchRecord) :
    (s.setFetch c f).monitor = s.monitor := rfl
@[simp] theorem State.setFetch_events (s : State) (c : Fin 16) (f : FetchRecord) :
    (s.setFetch c f).events = s.events := rfl
@[simp] theorem State.setFetch_link (s : State) (c : Fin 16) (f : FetchRecord) :
    (s.setFetch c f).link = s.link := rfl
@[simp] theorem State.setFetch_freeCount (s : State) (c : Fin 16) (f : FetchRecord) :
    (s.setFetch c f).freeCount = s.freeCount := rfl
@[simp] theorem State.setFetch_pending (s : State) (c : Fin 16) (f : FetchRecord) :
    (s.setFetch c f).pending = s.pending := rfl
@[simp] theorem State.setFetch_part (s : State) (c : Fin 16) (f : FetchRecord) (j : Fin 16) :
    (s.setFetch c f).part j = s.part j := rfl
@[simp] theorem State.setFetch_chan (s : State) (c : Fin 16) (f : FetchRecord) (j : Fin 16) :
    (s.setFetch c f).chan j = s.chan j := rfl
theorem State.setFetch_fetchOf (s : State) (c j : Fin 16) (f : FetchRecord) :
    (s.setFetch c f).fetchOf j = if j = c then f else s.fetchOf j := get_set _ _ _ _
@[simp] theorem State.setFetch_fetchOf_self (s : State) (c : Fin 16) (f : FetchRecord) : (s.setFetch c f).fetchOf c = f := by
  simp [State.setFetch_fetchOf]
@[simp] theorem State.setFetch_slot (s : State) (c : Fin 16) (f : FetchRecord) (j : Fin 4) :
    (s.setFetch c f).slot j = s.slot j := rfl
@[simp] theorem State.setFetch_ring (s : State) (c : Fin 16) (f : FetchRecord) (j : Fin 9) :
    (s.setFetch c f).ring j = s.ring j := rfl
@[simp] theorem State.setFetch_tag (s : State) (c : Fin 16) (f : FetchRecord) (j : Fin 16) :
    (s.setFetch c f).tag j = s.tag j := rfl

/-! ### `setSlot` -/

@[simp] theorem State.setSlot_capacity (s : State) (k : Fin 4) (x : Slot) :
    (s.setSlot k x).capacity = s.capacity := rfl
@[simp] theorem State.setSlot_power (s : State) (k : Fin 4) (x : Slot) :
    (s.setSlot k x).power = s.power := rfl
@[simp] theorem State.setSlot_time (s : State) (k : Fin 4) (x : Slot) :
    (s.setSlot k x).time = s.time := rfl
@[simp] theorem State.setSlot_ctl (s : State) (k : Fin 4) (x : Slot) :
    (s.setSlot k x).ctl = s.ctl := rfl
@[simp] theorem State.setSlot_partitions (s : State) (k : Fin 4) (x : Slot) :
    (s.setSlot k x).partitions = s.partitions := rfl
@[simp] theorem State.setSlot_channels (s : State) (k : Fin 4) (x : Slot) :
    (s.setSlot k x).channels = s.channels := rfl
@[simp] theorem State.setSlot_fetch (s : State) (k : Fin 4) (x : Slot) :
    (s.setSlot k x).fetch = s.fetch := rfl
@[simp] theorem State.setSlot_sched (s : State) (k : Fin 4) (x : Slot) :
    (s.setSlot k x).sched = s.sched := rfl
@[simp] theorem State.setSlot_rings (s : State) (k : Fin 4) (x : Slot) :
    (s.setSlot k x).rings = s.rings := rfl
@[simp] theorem State.setSlot_adminRing (s : State) (k : Fin 4) (x : Slot) :
    (s.setSlot k x).adminRing = s.adminRing := rfl
@[simp] theorem State.setSlot_admin (s : State) (k : Fin 4) (x : Slot) :
    (s.setSlot k x).admin = s.admin := rfl
@[simp] theorem State.setSlot_adminFetch (s : State) (k : Fin 4) (x : Slot) :
    (s.setSlot k x).adminFetch = s.adminFetch := rfl
@[simp] theorem State.setSlot_port (s : State) (k : Fin 4) (x : Slot) :
    (s.setSlot k x).port = s.port := rfl
@[simp] theorem State.setSlot_memState (s : State) (k : Fin 4) (x : Slot) :
    (s.setSlot k x).memState = s.memState := rfl
@[simp] theorem State.setSlot_mem (s : State) (k : Fin 4) (x : Slot) :
    (s.setSlot k x).mem = s.mem := rfl
@[simp] theorem State.setSlot_refresh (s : State) (k : Fin 4) (x : Slot) :
    (s.setSlot k x).refresh = s.refresh := rfl
@[simp] theorem State.setSlot_scrub (s : State) (k : Fin 4) (x : Slot) :
    (s.setSlot k x).scrub = s.scrub := rfl
@[simp] theorem State.setSlot_health (s : State) (k : Fin 4) (x : Slot) :
    (s.setSlot k x).health = s.health := rfl
@[simp] theorem State.setSlot_monitor (s : State) (k : Fin 4) (x : Slot) :
    (s.setSlot k x).monitor = s.monitor := rfl
@[simp] theorem State.setSlot_events (s : State) (k : Fin 4) (x : Slot) :
    (s.setSlot k x).events = s.events := rfl
@[simp] theorem State.setSlot_link (s : State) (k : Fin 4) (x : Slot) :
    (s.setSlot k x).link = s.link := rfl
@[simp] theorem State.setSlot_freeCount (s : State) (k : Fin 4) (x : Slot) :
    (s.setSlot k x).freeCount = s.freeCount := rfl
@[simp] theorem State.setSlot_pending (s : State) (k : Fin 4) (x : Slot) :
    (s.setSlot k x).pending = s.pending := rfl
@[simp] theorem State.setSlot_part (s : State) (k : Fin 4) (x : Slot) (j : Fin 16) :
    (s.setSlot k x).part j = s.part j := rfl
@[simp] theorem State.setSlot_chan (s : State) (k : Fin 4) (x : Slot) (j : Fin 16) :
    (s.setSlot k x).chan j = s.chan j := rfl
@[simp] theorem State.setSlot_fetchOf (s : State) (k : Fin 4) (x : Slot) (j : Fin 16) :
    (s.setSlot k x).fetchOf j = s.fetchOf j := rfl
theorem State.setSlot_slot (s : State) (k j : Fin 4) (x : Slot) :
    (s.setSlot k x).slot j = if j = k then x else s.slot j := get_set _ _ _ _
@[simp] theorem State.setSlot_slot_self (s : State) (k : Fin 4) (x : Slot) : (s.setSlot k x).slot k = x := by
  simp [State.setSlot_slot]
@[simp] theorem State.setSlot_ring (s : State) (k : Fin 4) (x : Slot) (j : Fin 9) :
    (s.setSlot k x).ring j = s.ring j := rfl
@[simp] theorem State.setSlot_tag (s : State) (k : Fin 4) (x : Slot) (j : Fin 16) :
    (s.setSlot k x).tag j = s.tag j := rfl

/-! ### `setRing` -/

@[simp] theorem State.setRing_capacity (s : State) (r : Fin 9) (x : Ring) :
    (s.setRing r x).capacity = s.capacity := rfl
@[simp] theorem State.setRing_power (s : State) (r : Fin 9) (x : Ring) :
    (s.setRing r x).power = s.power := rfl
@[simp] theorem State.setRing_time (s : State) (r : Fin 9) (x : Ring) :
    (s.setRing r x).time = s.time := rfl
@[simp] theorem State.setRing_ctl (s : State) (r : Fin 9) (x : Ring) :
    (s.setRing r x).ctl = s.ctl := rfl
@[simp] theorem State.setRing_partitions (s : State) (r : Fin 9) (x : Ring) :
    (s.setRing r x).partitions = s.partitions := rfl
@[simp] theorem State.setRing_channels (s : State) (r : Fin 9) (x : Ring) :
    (s.setRing r x).channels = s.channels := rfl
@[simp] theorem State.setRing_fetch (s : State) (r : Fin 9) (x : Ring) :
    (s.setRing r x).fetch = s.fetch := rfl
@[simp] theorem State.setRing_sched (s : State) (r : Fin 9) (x : Ring) :
    (s.setRing r x).sched = s.sched := rfl
@[simp] theorem State.setRing_slots (s : State) (r : Fin 9) (x : Ring) :
    (s.setRing r x).slots = s.slots := rfl
@[simp] theorem State.setRing_adminRing (s : State) (r : Fin 9) (x : Ring) :
    (s.setRing r x).adminRing = s.adminRing := rfl
@[simp] theorem State.setRing_admin (s : State) (r : Fin 9) (x : Ring) :
    (s.setRing r x).admin = s.admin := rfl
@[simp] theorem State.setRing_adminFetch (s : State) (r : Fin 9) (x : Ring) :
    (s.setRing r x).adminFetch = s.adminFetch := rfl
@[simp] theorem State.setRing_port (s : State) (r : Fin 9) (x : Ring) :
    (s.setRing r x).port = s.port := rfl
@[simp] theorem State.setRing_memState (s : State) (r : Fin 9) (x : Ring) :
    (s.setRing r x).memState = s.memState := rfl
@[simp] theorem State.setRing_mem (s : State) (r : Fin 9) (x : Ring) :
    (s.setRing r x).mem = s.mem := rfl
@[simp] theorem State.setRing_refresh (s : State) (r : Fin 9) (x : Ring) :
    (s.setRing r x).refresh = s.refresh := rfl
@[simp] theorem State.setRing_scrub (s : State) (r : Fin 9) (x : Ring) :
    (s.setRing r x).scrub = s.scrub := rfl
@[simp] theorem State.setRing_health (s : State) (r : Fin 9) (x : Ring) :
    (s.setRing r x).health = s.health := rfl
@[simp] theorem State.setRing_monitor (s : State) (r : Fin 9) (x : Ring) :
    (s.setRing r x).monitor = s.monitor := rfl
@[simp] theorem State.setRing_events (s : State) (r : Fin 9) (x : Ring) :
    (s.setRing r x).events = s.events := rfl
@[simp] theorem State.setRing_link (s : State) (r : Fin 9) (x : Ring) :
    (s.setRing r x).link = s.link := rfl
@[simp] theorem State.setRing_freeCount (s : State) (r : Fin 9) (x : Ring) :
    (s.setRing r x).freeCount = s.freeCount := rfl
@[simp] theorem State.setRing_pending (s : State) (r : Fin 9) (x : Ring) :
    (s.setRing r x).pending = s.pending := rfl
@[simp] theorem State.setRing_part (s : State) (r : Fin 9) (x : Ring) (j : Fin 16) :
    (s.setRing r x).part j = s.part j := rfl
@[simp] theorem State.setRing_chan (s : State) (r : Fin 9) (x : Ring) (j : Fin 16) :
    (s.setRing r x).chan j = s.chan j := rfl
@[simp] theorem State.setRing_fetchOf (s : State) (r : Fin 9) (x : Ring) (j : Fin 16) :
    (s.setRing r x).fetchOf j = s.fetchOf j := rfl
@[simp] theorem State.setRing_slot (s : State) (r : Fin 9) (x : Ring) (j : Fin 4) :
    (s.setRing r x).slot j = s.slot j := rfl
theorem State.setRing_ring (s : State) (r j : Fin 9) (x : Ring) :
    (s.setRing r x).ring j = if j = r then x else s.ring j := get_set _ _ _ _
@[simp] theorem State.setRing_ring_self (s : State) (r : Fin 9) (x : Ring) : (s.setRing r x).ring r = x := by
  simp [State.setRing_ring]
@[simp] theorem State.setRing_tag (s : State) (r : Fin 9) (x : Ring) (j : Fin 16) :
    (s.setRing r x).tag j = s.tag j := rfl

/-! ### `setTag` -/

@[simp] theorem State.setTag_capacity (s : State) (t : Fin 16) (x : Tag) :
    (s.setTag t x).capacity = s.capacity := rfl
@[simp] theorem State.setTag_power (s : State) (t : Fin 16) (x : Tag) :
    (s.setTag t x).power = s.power := rfl
@[simp] theorem State.setTag_time (s : State) (t : Fin 16) (x : Tag) :
    (s.setTag t x).time = s.time := rfl
@[simp] theorem State.setTag_ctl (s : State) (t : Fin 16) (x : Tag) :
    (s.setTag t x).ctl = s.ctl := rfl
@[simp] theorem State.setTag_partitions (s : State) (t : Fin 16) (x : Tag) :
    (s.setTag t x).partitions = s.partitions := rfl
@[simp] theorem State.setTag_channels (s : State) (t : Fin 16) (x : Tag) :
    (s.setTag t x).channels = s.channels := rfl
@[simp] theorem State.setTag_fetch (s : State) (t : Fin 16) (x : Tag) :
    (s.setTag t x).fetch = s.fetch := rfl
@[simp] theorem State.setTag_sched (s : State) (t : Fin 16) (x : Tag) :
    (s.setTag t x).sched = s.sched := rfl
@[simp] theorem State.setTag_slots (s : State) (t : Fin 16) (x : Tag) :
    (s.setTag t x).slots = s.slots := rfl
@[simp] theorem State.setTag_rings (s : State) (t : Fin 16) (x : Tag) :
    (s.setTag t x).rings = s.rings := rfl
@[simp] theorem State.setTag_adminRing (s : State) (t : Fin 16) (x : Tag) :
    (s.setTag t x).adminRing = s.adminRing := rfl
@[simp] theorem State.setTag_admin (s : State) (t : Fin 16) (x : Tag) :
    (s.setTag t x).admin = s.admin := rfl
@[simp] theorem State.setTag_adminFetch (s : State) (t : Fin 16) (x : Tag) :
    (s.setTag t x).adminFetch = s.adminFetch := rfl
@[simp] theorem State.setTag_port (s : State) (t : Fin 16) (x : Tag) :
    (s.setTag t x).port = s.port := rfl
@[simp] theorem State.setTag_memState (s : State) (t : Fin 16) (x : Tag) :
    (s.setTag t x).memState = s.memState := rfl
@[simp] theorem State.setTag_mem (s : State) (t : Fin 16) (x : Tag) :
    (s.setTag t x).mem = s.mem := rfl
@[simp] theorem State.setTag_refresh (s : State) (t : Fin 16) (x : Tag) :
    (s.setTag t x).refresh = s.refresh := rfl
@[simp] theorem State.setTag_scrub (s : State) (t : Fin 16) (x : Tag) :
    (s.setTag t x).scrub = s.scrub := rfl
@[simp] theorem State.setTag_health (s : State) (t : Fin 16) (x : Tag) :
    (s.setTag t x).health = s.health := rfl
@[simp] theorem State.setTag_monitor (s : State) (t : Fin 16) (x : Tag) :
    (s.setTag t x).monitor = s.monitor := rfl
@[simp] theorem State.setTag_events (s : State) (t : Fin 16) (x : Tag) :
    (s.setTag t x).events = s.events := rfl
@[simp] theorem State.setTag_freeCount (s : State) (t : Fin 16) (x : Tag) :
    (s.setTag t x).freeCount = s.freeCount := rfl
@[simp] theorem State.setTag_pending (s : State) (t : Fin 16) (x : Tag) :
    (s.setTag t x).pending = s.pending := rfl
@[simp] theorem State.setTag_link_up (s : State) (t : Fin 16) (x : Tag) :
    (s.setTag t x).link.up = s.link.up := rfl
@[simp] theorem State.setTag_link_slotRequests (s : State) (t : Fin 16) (x : Tag) :
    (s.setTag t x).link.slotRequests = s.link.slotRequests := rfl
@[simp] theorem State.setTag_link_slotPointer (s : State) (t : Fin 16) (x : Tag) :
    (s.setTag t x).link.slotPointer = s.link.slotPointer := rfl
@[simp] theorem State.setTag_link_channelPointer (s : State) (t : Fin 16) (x : Tag) :
    (s.setTag t x).link.channelPointer = s.link.channelPointer := rfl
@[simp] theorem State.setTag_link_timeoutMs (s : State) (t : Fin 16) (x : Tag) :
    (s.setTag t x).link.timeoutMs = s.link.timeoutMs := rfl
@[simp] theorem State.setTag_link_outbound (s : State) (t : Fin 16) (x : Tag) :
    (s.setTag t x).link.outbound = s.link.outbound := rfl
@[simp] theorem State.setTag_link_messageEnable (s : State) (t : Fin 16) (x : Tag) :
    (s.setTag t x).link.messageEnable = s.link.messageEnable := rfl
@[simp] theorem State.setTag_link_vectors (s : State) (t : Fin 16) (x : Tag) :
    (s.setTag t x).link.vectors = s.link.vectors := rfl
@[simp] theorem State.setTag_link_delivered (s : State) (t : Fin 16) (x : Tag) :
    (s.setTag t x).link.delivered = s.link.delivered := rfl
@[simp] theorem State.setTag_part (s : State) (t : Fin 16) (x : Tag) (j : Fin 16) :
    (s.setTag t x).part j = s.part j := rfl
@[simp] theorem State.setTag_chan (s : State) (t : Fin 16) (x : Tag) (j : Fin 16) :
    (s.setTag t x).chan j = s.chan j := rfl
@[simp] theorem State.setTag_fetchOf (s : State) (t : Fin 16) (x : Tag) (j : Fin 16) :
    (s.setTag t x).fetchOf j = s.fetchOf j := rfl
@[simp] theorem State.setTag_slot (s : State) (t : Fin 16) (x : Tag) (j : Fin 4) :
    (s.setTag t x).slot j = s.slot j := rfl
@[simp] theorem State.setTag_ring (s : State) (t : Fin 16) (x : Tag) (j : Fin 9) :
    (s.setTag t x).ring j = s.ring j := rfl
theorem State.setTag_tag (s : State) (t j : Fin 16) (x : Tag) :
    (s.setTag t x).tag j = if j = t then x else s.tag j := get_set _ _ _ _
@[simp] theorem State.setTag_tag_self (s : State) (t : Fin 16) (x : Tag) : (s.setTag t x).tag t = x := by
  simp [State.setTag_tag]

end Sys2Proof.Machine
end

