-- ==== Sys2Proof/Laws/Memory.lean ====
section
/-! SUPPORT. Laws of buffer memory and of byte order: every operation keeps the canonical form, a read gives what was
written, and a write leaves every other byte alone. -/

namespace Sys2Proof.Machine

/-! ### One byte -/

theorem risingFrom_read_low {m : List Host.Cell} {k a : Nat} (h : Memory.risingFrom (some k) m = true) (ha : a ≤ k) :
    Memory.read m a = Memory.unlisted := by
  induction m generalizing k with
  | nil => rfl
  | cons e r ih =>
    obtain ⟨x, b⟩ := e
    simp only [Memory.risingFrom, Option.all_some, Bool.and_eq_true, decide_eq_true_eq] at h
    have hx : x ≠ a := by omega
    simp only [Memory.read, hx, if_false]
    exact ih h.2 (by omega)

theorem risingFrom_write {m : List Host.Cell} {low : Option Nat} {a : Nat} {b : Byte}
    (h : Memory.risingFrom low m = true) (ha : low.all (· < a) = true) :
    Memory.risingFrom low (Memory.write m a b) = true := by
  induction m generalizing low with
  | nil =>
    by_cases hb : b = Memory.unlisted
    · simp [Memory.write, hb, Memory.risingFrom]
    · simp [Memory.write, hb, Memory.risingFrom, ha]
  | cons e r ih =>
    obtain ⟨k, c⟩ := e
    simp only [Memory.risingFrom, Bool.and_eq_true, bne_iff_ne, ne_eq] at h
    obtain ⟨⟨hk, hc⟩, hr⟩ := h
    unfold Memory.write
    by_cases h1 : a < k
    · by_cases hb : b = Memory.unlisted
      · simp [h1, hb, Memory.risingFrom, hk, hc, hr]
      · simp [h1, hb, Memory.risingFrom, ha, hc, hr]
    · by_cases h2 : a = k
      · subst h2
        by_cases hb : b = Memory.unlisted
        · simp only [lt_irrefl, if_false, hb, if_true]
          cases r with
          | nil => rfl
          | cons e' r' =>
            obtain ⟨k', c'⟩ := e'
            simp only [Memory.risingFrom, Option.all_some, Bool.and_eq_true, decide_eq_true_eq] at hr ⊢
            refine ⟨⟨?_, hr.1.2⟩, hr.2⟩
            cases low with
            | none => rfl
            | some l => simp at ha ⊢; omega
        · simp [hb, Memory.risingFrom, ha, hr]
      · simp only [h1, h2, if_false, Memory.risingFrom, Bool.and_eq_true, bne_iff_ne, ne_eq]
        refine ⟨⟨hk, hc⟩, ih hr ?_⟩
        simp; omega

theorem wf_write {m : List Host.Cell} (h : Memory.wf m = true) (a : Nat) (b : Byte) :
    Memory.wf (Memory.write m a b) = true := risingFrom_write h rfl

theorem read_write_rising {m : List Host.Cell} {low : Option Nat} (h : Memory.risingFrom low m = true)
    (a c : Nat) (b : Byte) : Memory.read (Memory.write m a b) c = if c = a then b else Memory.read m c := by
  induction m generalizing low with
  | nil =>
    by_cases hb : b = Memory.unlisted
    · by_cases hc : c = a <;> simp [Memory.write, hb, Memory.read, hc]
    · by_cases hc : c = a
      · simp [Memory.write, hb, Memory.read, hc]
      · simp [Memory.write, hb, Memory.read, hc, Ne.symm hc]
  | cons e r ih =>
    obtain ⟨k, d⟩ := e
    simp only [Memory.risingFrom, Bool.and_eq_true, bne_iff_ne, ne_eq] at h
    obtain ⟨⟨_, _⟩, hr⟩ := h
    unfold Memory.write
    by_cases h1 : a < k
    · by_cases hb : b = Memory.unlisted
      · simp only [h1, hb, if_true]
        by_cases hc : c = a
        · subst hc
          have hk : k ≠ c := by omega
          simp only [Memory.read, hk, if_false, if_true]
          exact risingFrom_read_low hr (by omega)
        · simp [hc]
      · simp only [h1, hb, if_true, if_false, Memory.read]
        by_cases hc : c = a
        · simp [hc]
        · simp [hc, Ne.symm hc]
    · by_cases h2 : a = k
      · subst h2
        by_cases hb : b = Memory.unlisted
        · simp only [lt_irrefl, if_false, if_true, hb]
          by_cases hc : c = a
          · subst hc
            simp only [if_true]
            exact risingFrom_read_low hr le_rfl
          · simp [hc, Memory.read, Ne.symm hc]
        · by_cases hc : c = a
          · simp [hb, hc, Memory.read]
          · simp [hb, hc, Memory.read, Ne.symm hc]
      · simp only [h1, h2, if_false, Memory.read, ih hr]
        by_cases hk : k = c
        · subst hk; simp [Ne.symm h2]
        · simp [hk]

theorem read_write {m : List Host.Cell} (h : Memory.wf m = true) (a c : Nat) (b : Byte) :
    Memory.read (Memory.write m a b) c = if c = a then b else Memory.read m c := read_write_rising h a c b

/-! ### Consecutive bytes -/

theorem wf_writeBytes {m : List Host.Cell} (h : Memory.wf m = true) (a : Nat) (bs : List Byte) :
    Memory.wf (Memory.writeBytes m a bs) = true := by
  induction bs generalizing m a with
  | nil => exact h
  | cons b r ih => exact ih (wf_write h a b) (a + 1)

theorem read_writeBytes {m : List Host.Cell} (h : Memory.wf m = true) (a c : Nat) (bs : List Byte) :
    Memory.read (Memory.writeBytes m a bs) c =
      if a ≤ c ∧ c < a + bs.length then bs.getD (c - a) 0 else Memory.read m c := by
  induction bs generalizing m a with
  | nil =>
    have h' : ¬ (a ≤ c ∧ c < a + ([] : List Byte).length) := by simp
    rw [if_neg h']; rfl
  | cons b r ih =>
    rw [Memory.writeBytes, ih (wf_write h a b), read_write h]
    by_cases hc : c = a
    · subst hc; simp
    · by_cases hin : a + 1 ≤ c ∧ c < a + 1 + r.length
      · have h' : a ≤ c ∧ c < a + (b :: r).length := by simp; omega
        obtain ⟨n, hn⟩ : ∃ n, c - a = n + 1 := ⟨c - a - 1, by omega⟩
        have hn' : c - (a + 1) = n := by omega
        rw [if_pos hin, if_pos h', hn, hn']; rfl
      · have h' : ¬ (a ≤ c ∧ c < a + (b :: r).length) := by simp at hin ⊢; omega
        rw [if_neg hin, if_neg h', if_neg hc]

theorem read_writeBytes_outside {m : List Host.Cell} (h : Memory.wf m = true) {a c : Nat} {bs : List Byte}
    (hc : c < a ∨ a + bs.length ≤ c) : Memory.read (Memory.writeBytes m a bs) c = Memory.read m c := by
  rw [read_writeBytes h, if_neg (by omega)]

@[simp] theorem readBytes_length (m : List Host.Cell) (a n : Nat) : (Memory.readBytes m a n).length = n := by
  induction n generalizing a with
  | zero => rfl
  | succ n ih => simp [Memory.readBytes, ih]

theorem readBytes_getD (m : List Host.Cell) (a n i : Nat) (hi : i < n) :
    (Memory.readBytes m a n).getD i 0 = Memory.read m (a + i) := by
  induction n generalizing a i with
  | zero => omega
  | succ n ih =>
    cases i with
    | zero => simp [Memory.readBytes]
    | succ i =>
      simp only [Memory.readBytes, List.getD_cons_succ]
      rw [ih (a + 1) i (by omega)]
      congr 1; omega

theorem readBytes_append (m : List Host.Cell) (a n k : Nat) :
    Memory.readBytes m a (n + k) = Memory.readBytes m a n ++ Memory.readBytes m (a + n) k := by
  induction n generalizing a with
  | zero => simp [Memory.readBytes]
  | succ n ih =>
    have h1 : n + 1 + k = (n + k) + 1 := by omega
    have h2 : a + (n + 1) = a + 1 + n := by omega
    rw [h1, h2]
    simp [Memory.readBytes, ih]

theorem readBytes_writeBytes {m : List Host.Cell} (h : Memory.wf m = true) (a : Nat) (bs : List Byte) :
    Memory.readBytes (Memory.writeBytes m a bs) a bs.length = bs := by
  apply List.ext_getElem (by simp)
  intro i h1 h2
  have e1 := readBytes_getD (Memory.writeBytes m a bs) a bs.length i h2
  rw [read_writeBytes h] at e1
  simp only [List.getD_eq_getElem?_getD, List.getElem?_eq_getElem h1, Option.getD_some] at e1
  rw [e1]
  have : a ≤ a + i ∧ a + i < a + bs.length := by omega
  simp [this, h2]

/-! ### Byte order -/

@[simp] theorem leBytes_length (n v : Nat) : (leBytes n v).length = n := by
  induction n generalizing v with
  | zero => rfl
  | succ n ih => simp [leBytes, ih]

theorem leValue_leBytes (n v : Nat) : leValue (leBytes n v) = v % 256 ^ n := by
  induction n generalizing v with
  | zero => simp [leBytes, leValue, Nat.mod_one]
  | succ n ih =>
    show (BitVec.ofNat 8 v).toNat + 256 * leValue (leBytes n (v / 256)) = v % 256 ^ (n + 1)
    have e : 256 ^ (n + 1) = 2 ^ 8 * 256 ^ n := by rw [Nat.pow_succ, Nat.mul_comm]; rfl
    rw [ih, BitVec.toNat_ofNat, e, Nat.mod_mul]; rfl

@[simp] theorem splitRecords_length (n : Nat) (bytes : List Byte) : (splitRecords n bytes).length = n := by
  induction n generalizing bytes with
  | zero => rfl
  | succ n ih => simp [splitRecords, ih]

theorem reset_memory : State.reset.MemoryLaw := rfl

end Sys2Proof.Machine
end

