-- ==== Sys2Proof/Laws/Grants.lean ====
section
/-! SUPPORT. What handing over, raising, the grants of tags and the grants of the port change: the frames of the shared
operations that end a happening. -/

namespace Sys2Proof.Machine

/-! ### Handing over to the LIU (R167) -/

/-- Everything `handOut` can do: nothing, or the item joins the outbound queue. -/
theorem handOut_cases (s : State) (o : Outbound) :
    s.handOut o = s ∨
      (s.link.up = true ∧ s.handOut o = { s with link := { s.link with outbound := s.link.outbound ++ [o] } }) := by
  unfold State.handOut
  split
  · split
    · rename_i h; simp only [Bool.and_eq_true] at h; exact .inr ⟨h.1, rfl⟩
    · exact .inl rfl
  · split
    · rename_i h; exact .inr ⟨h, rfl⟩
    · exact .inl rfl

/-- A posted write joins the outbound queue exactly while the link is UP. -/
theorem handOut_write (s : State) (a : HostAddr) (bs : List Byte) :
    s.handOut (.write a bs) =
      if s.link.up then { s with link := { s.link with outbound := s.link.outbound ++ [.write a bs] } } else s := rfl

/-- `handOut` changes the outbound queue alone. -/
theorem handOut_eq (s : State) (o : Outbound) : ∃ q, s.handOut o = { s with link := { s.link with outbound := q } } := by
  rcases handOut_cases s o with h | ⟨_, h⟩
  · exact ⟨s.link.outbound, by rw [h]⟩
  · exact ⟨_, h⟩

/-! ### Raising a cause (R94, R96) -/

/-- `raise` changes the EVENTS register and the outbound queue alone. -/
theorem raise_eq (s : State) (c : Cause) :
    ∃ e q, s.raise c = { s with events := e, link := { s.link with outbound := q } } := by
  unfold State.raise
  split
  · exact ⟨s.events, s.link.outbound, rfl⟩
  · obtain ⟨q, h⟩ := handOut_eq { s with events := s.events.set c } (.message 0)
    exact ⟨s.events.set c, q, h⟩

/-- After `raise` the cause is set in EVENTS. -/
theorem raise_events (s : State) (c : Cause) :
    (s.raise c).events = if s.events.has c then s.events else s.events.set c := by
  unfold State.raise
  split
  · rfl
  · obtain ⟨q, h⟩ := handOut_eq { s with events := s.events.set c } (.message 0)
    rw [h]

/-! ### Tag requests and grants (R28, R57, R131, R169) -/

@[simp] theorem refreshed_besideTags (w : Bool) (f : FetchRecord) : (f.refreshed w).besideTags = f.besideTags := by
  cases f <;> cases w <;> rfl

theorem besideTags_refreshRequests (s : State) : (refreshRequests s).besideTags = s.besideTags := by
  simp [State.besideTags, refreshRequests, State.fetchOf, State.slot, Link.besideTags]

@[simp] theorem besideTags_link_issueRead (s : State) (t : Fin 16) (h : TagHolder) (a : HostAddr) (len pos : Nat) :
    (issueRead s t h a len pos).link.besideTags = s.link.besideTags := by
  simp [issueRead, State.setTag, Link.besideTags, Outbound.isRead]

/-- `issueRead` changes the link alone. -/
theorem issueRead_eq (s : State) (t : Fin 16) (h : TagHolder) (a : HostAddr) (len pos : Nat) :
    ∃ l, issueRead s t h a len pos = { s with link := l } ∧ l.besideTags = s.link.besideTags :=
  ⟨_, rfl, besideTags_link_issueRead s t h a len pos⟩

/-- The request that the LIU grants is one that stands (R169). -/
theorem grantHolder_channel {s : State} {c : Fin 16} (h : grantHolder s = some (.channel c)) :
    s.fetchOf c = .requesting := by
  unfold grantHolder at h
  split at h
  · cases h
  · split at h
    · cases h
    · simp only [Option.map_eq_some_iff, TagHolder.channel.injEq] at h
      obtain ⟨d, hd, rfl⟩ := h
      have := List.find?_some hd
      simpa using this

theorem grantHolder_admin {s : State} (h : grantHolder s = some .admin) : s.adminFetch = .requesting := by
  unfold grantHolder at h
  split at h
  · cases h
  · split at h
    · assumption
    · simp only [Option.map_eq_some_iff] at h
      obtain ⟨_, _, h⟩ := h
      cases h

theorem besideTags_grantTo (s : State) (t : Fin 16) (h : TagHolder) (hh : grantHolder s = some h) :
    (grantTo s t h).besideTags = s.besideTags := by
  cases h with
  | none => rfl
  | slot k =>
    simp only [State.besideTags, grantTo, issueRead, State.setSlot, State.setTag, State.fetchOf, State.slot,
      Link.besideTags, State.mk.injEq, true_and, and_true]
    refine ⟨?_, ?_⟩
    · apply tabulate_eq
      intro j
      by_cases hj : j = k
      · subst hj; simp [get_set]
      · simp [get_set, hj]
    · simp [Outbound.isRead]
  | admin =>
    have := grantHolder_admin hh
    simp [State.besideTags, grantTo, issueRead, State.setTag, State.fetchOf, State.slot, Link.besideTags,
      Outbound.isRead, this, FetchRecord.besideTags]
  | channel c =>
    have hc := grantHolder_channel hh
    simp only [State.besideTags, grantTo, issueRead, State.setFetch, State.setTag, State.fetchOf, State.slot,
      Link.besideTags, State.mk.injEq, true_and, and_true]
    refine ⟨?_, ?_⟩
    · apply tabulate_eq
      intro j
      by_cases hj : j = c
      · subst hj
        have hc' : s.fetch.get j = .requesting := hc
        simp [get_set, hc', FetchRecord.besideTags]
      · simp [get_set, hj]
    · simp [Outbound.isRead]

theorem besideTags_grantTags (n : Nat) (s : State) : (grantTags n s).besideTags = s.besideTags := by
  induction n generalizing s with
  | zero => rfl
  | succ n ih =>
    unfold grantTags
    split
    · split
      · rename_i hh
        rw [ih, besideTags_grantTo _ _ _ hh]
      · rfl
    · rfl

/-- Requests and grants of tags change nothing but tags, requests, fetch records and a slot's reads. -/
@[simp] theorem besideTags_settleLink (s : State) : (settleLink s).besideTags = s.besideTags := by
  rw [settleLink, besideTags_grantTags, besideTags_refreshRequests]

/-! ### What a state without grants still says -/

theorem besideGrants_of_besideTags {s t : State} (h : s.besideTags = t.besideTags) :
    s.link.besideTags = t.link.besideTags ∧ s.mem = t.mem ∧ s.partitions = t.partitions ∧ s.channels = t.channels ∧
      s.rings = t.rings ∧ s.ctl = t.ctl ∧ s.health = t.health ∧ s.events = t.events ∧ s.port = t.port ∧
      s.refresh = t.refresh ∧ s.scrub = t.scrub ∧ s.monitor = t.monitor ∧ s.admin = t.admin ∧
      s.adminRing = t.adminRing ∧ s.power = t.power ∧ s.time = t.time ∧ s.capacity = t.capacity ∧
      s.sched = t.sched ∧ s.memState = t.memState ∧ s.freeCount = t.freeCount ∧ s.pending = t.pending := by
  simp only [State.besideTags, State.mk.injEq] at h
  tauto

/-! ### Taking a command of the admin ring (R134, R135) -/

/-- A taken command answers exactly this next state. -/
theorem takeCommand_next {codes : Nat → Bool} {body : State → Record → Taken} {fin : State → State} {s : State}
    {f : Fetched} {rest : List Fetched} {code : Nat} (h : Takes s f rest code) (hc : codes code = true) :
    takeCommand codes body fin s = .next (fin (body (beginCommand s f rest) f.entry).state) := by
  obtain ⟨h1, h2, h3, h4, h5⟩ := h
  simp [takeCommand, h4, canTake, h1, h2, h3, h5, hc]

/-- A command completed in the happening in which it is taken leaves its effect and its completion. -/
theorem taken_done_state (s x : State) (f : Fetched) (rest : List Fetched) (st : Status) (result : Word32)
    (hx : x.admin = (beginCommand s f rest).admin) :
    (Taken.done x st result).state = { x with admin := s.admin.completing f rest st result } := by
  simp only [Taken.state, State.handOverAdmin, hx, beginCommand, Admin.completing, adminCompletion]

/-! ### Grants of the port (R100, R101) -/

/-- The same state seen without grants of tags and of the port, through the state seen without grants of tags. -/
theorem besideGrants_eq (s : State) :
    s.besideGrants =
      { s.besideTags with
        slots := tabulate 4 fun k => { s.besideTags.slot k with port := .none }
        refresh := if s.ctl.op = .draining then s.refresh.stop else s.refresh
        port :=
          { holder := .none, urgentPointer := 0, bulkPointer := 0,
            entryRequest := if s.ctl.op = .draining then false else s.port.entryRequest } } := by
  simp [State.besideGrants, State.besideTags, State.slot]

theorem besideGrants_congr {s t : State} (h : s.besideTags = t.besideTags) : s.besideGrants = t.besideGrants := by
  have hp := (besideGrants_of_besideTags h).2.2.2.2.2.2.2.2.1
  have hc := (besideGrants_of_besideTags h).2.2.2.2.2.1
  have hr := (besideGrants_of_besideTags h).2.2.2.2.2.2.2.2.2.1
  rw [besideGrants_eq s, besideGrants_eq t, h, hp, hc, hr]

@[simp] theorem besideGrants_settleLink (s : State) : (settleLink s).besideGrants = s.besideGrants :=
  besideGrants_congr (besideTags_settleLink s)

/-- The port is granted for self-refresh entry only where it was requested (R110). -/
theorem portChoice_entry {s : State} (h : portChoice s = .selfRefreshEntry) :
    s.port.entryRequest = true ∧ s.slotsIdle = true ∧ s.refresh.debt = 0 := by
  unfold portChoice at h
  split at h
  · cases h
  · split at h
    · cases h
    · split at h
      · cases h
      · split at h
        · cases h
        · split at h
          · cases h
          · split at h
            · rename_i hd he
              simp only [Bool.and_eq_true] at he
              exact ⟨he.1, he.2, by omega⟩
            · split at h <;> cases h

theorem stop_stop (r : RefreshEngine) : r.stop.stop = r.stop := rfl

theorem besideGrants_grantPort (s : State) (h : PortHolder) (he : h = .selfRefreshEntry → s.ctl.op = .draining) :
    (grantPort s h).besideGrants = s.besideGrants := by
  cases h with
  | slot k =>
    simp only [State.besideGrants, grantPort, State.setSlot, State.fetchOf, State.slot, State.mk.injEq, true_and,
      and_true]
    refine ⟨?_, ?_⟩
    · apply tabulate_eq
      intro j
      by_cases hj : j = k
      · subst hj; simp [get_set]
      · simp [get_set, hj]
    · constructor
      · cases (s.slots.get k).cls <;> rfl
      · rfl
  | selfRefreshEntry => simp [State.besideGrants, grantPort, State.fetchOf, State.slot, he rfl, stop_stop]
  | none => rfl
  | refreshEngine => rfl
  | scrubUnit => rfl
  | selfRefreshExit => rfl
  | arrayStart => rfl

theorem besideGrants_settlePort {s : State} (he : s.EntryLaw) : (settlePort s).besideGrants = s.besideGrants := by
  unfold settlePort
  split
  · exact besideGrants_grantPort _ _ fun h => he (portChoice_entry h).1
  · rfl

/-! ### How a happening is concluded -/

/-- A happening concluded changes, beside grants, what its passages change. -/
theorem besideGrants_conclude {s : State} (he : (settlePhases s).EntryLaw) :
    (conclude s).besideGrants = (settlePhases s).besideGrants := by
  have h := besideGrants_of_besideTags (besideTags_settleLink (settlePhases s))
  have he' : (settleLink (settlePhases s)).EntryLaw := by
    intro hr
    rw [h.2.2.2.2.2.2.2.2.1] at hr
    rw [h.2.2.2.2.2.1]
    exact he hr
  rw [conclude, besideGrants_settlePort he', besideGrants_settleLink]

/-- In ACTIVE, with no DELETE_CHANNEL waiting, no passage follows. -/
theorem settlePhases_active {s : State} (ho : s.ctl.op = .active) (hd : deletingChannel s = none) :
    settlePhases s = s := by
  have h1 : endDeletion s = s := by simp [endDeletion, hd]
  have h2 : quiesceStep s = s := by simp [quiesceStep, ho]
  have h3 : stopStep s = s := by simp [stopStep, ho]
  have h4 : flushStep s = s := by simp [flushStep, ho]
  simp [settlePhases, h1, h2, h3, h4]

theorem besideGrants_conclude_active {s : State} (ho : s.ctl.op = .active) (hd : deletingChannel s = none)
    (he : s.EntryLaw) : (conclude s).besideGrants = s.besideGrants := by
  rw [besideGrants_conclude] <;> rw [settlePhases_active ho hd]
  exact he

end Sys2Proof.Machine
end

