-- ==== Sys2Proof/Laws/Frames.lean ====
section
/-! SUPPORT. What each shared operation can change: one lemma for each, which says that its result is the state with only
the named fields replaced. Every frame of a command follows from these. -/

namespace Sys2Proof.Machine

/-! ### Completion rings -/

theorem sendVector_eq (s : State) (r : Fin 9) :
    ∃ q rs, sendVector s r = { s with rings := rs, link := { s.link with outbound := q } } := by
  obtain ⟨q, h⟩ := handOut_eq s (.message (s.ring r).vector)
  exact ⟨q, _, by rw [sendVector, h]; rfl⟩

theorem signalRest_eq (s : State) (r : Fin 9) :
    ∃ q rs, signalRest s r = { s with rings := rs, link := { s.link with outbound := q } } := by
  unfold signalRest
  split
  · exact sendVector_eq s r
  · exact ⟨_, _, rfl⟩

theorem foldl_signalRest_eq (l : List (Fin 9)) (s : State) :
    ∃ q rs, l.foldl signalRest s = { s with rings := rs, link := { s.link with outbound := q } } := by
  induction l generalizing s with
  | nil => exact ⟨_, _, rfl⟩
  | cons r l ih =>
    obtain ⟨q, rs, h⟩ := signalRest_eq s r
    obtain ⟨q', rs', h'⟩ := ih (signalRest s r)
    exact ⟨q', rs', by rw [List.foldl_cons, h', h]⟩

theorem signalAll_eq (s : State) :
    ∃ q rs, signalAll s = { s with rings := rs, link := { s.link with outbound := q } } :=
  foldl_signalRest_eq allRings s

theorem coalesce_eq (s : State) (r : Fin 9) (n : Bool) :
    ∃ q rs, coalesce s r n = { s with rings := rs, link := { s.link with outbound := q } } := by
  unfold coalesce
  simp only
  split
  · exact sendVector_eq s r
  · exact ⟨_, _, rfl⟩

theorem writeEntry_eq (s : State) (r : Fin 9) (c : Completion) :
    ∃ q rs, writeEntry s r c = { s with rings := rs, link := { s.link with outbound := q } } := by
  obtain ⟨q, h⟩ :=
    handOut_eq s (.write ((s.ring r).base + BitVec.ofNat 64 (16 * (s.ring r).write)) (entryBytes c (s.ring r).lap))
  unfold writeEntry
  simp only [h]
  obtain ⟨q', rs', h'⟩ :=
    coalesce_eq
      (State.setRing { s with link := { s.link with outbound := q } } r (s.ring r).written) r c.notify
  exact ⟨q', rs', by rw [h']; rfl⟩

/-! ### Partitions -/

theorem takeRef_eq (s : State) (r : BufferRef) (w : Bool) : ∃ ps, takeRef s r w = { s with partitions := ps } := by
  unfold takeRef
  split <;> exact ⟨_, rfl⟩

theorem takeRefs_eq (s : State) (r : Record) (k : Kind) : ∃ ps, takeRefs s r k = { s with partitions := ps } := by
  obtain ⟨ps, h⟩ := takeRef_eq s (refA r) k.writes
  unfold takeRefs
  simp only
  split
  · obtain ⟨ps', h'⟩ := takeRef_eq (takeRef s (refA r) k.writes) (refB r) false
    exact ⟨ps', by rw [h', h]⟩
  · exact ⟨ps, h⟩

theorem markTorn_eq (s : State) (r : BufferRef) : ∃ ps, markTorn s r = { s with partitions := ps } := by
  unfold markTorn
  split <;> exact ⟨_, rfl⟩

theorem dropRef_eq (s : State) (r : BufferRef) (w : Bool) : ∃ ps, dropRef s r w = { s with partitions := ps } := by
  unfold dropRef
  split <;> exact ⟨_, rfl⟩

theorem handOverAdmin_eq (s : State) (st : Status) (v : Word32) :
    ∃ a, s.handOverAdmin st v = { s with admin := a } := by
  unfold State.handOverAdmin
  split <;> exact ⟨_, rfl⟩

theorem freeIfReleased_eq (s : State) (r : BufferRef) :
    ∃ ps a, freeIfReleased s r = { s with partitions := ps, admin := a } := by
  unfold freeIfReleased
  split
  · exact ⟨_, _, rfl⟩
  · split
    · simp only
      split
      · obtain ⟨a, h⟩ := handOverAdmin_eq (freePart s _) .ok 0
        exact ⟨_, a, by rw [h]; rfl⟩
      · exact ⟨_, _, rfl⟩
    · exact ⟨_, _, rfl⟩

theorem releaseRefs_eq (s : State) (sl : Slot) (w torn : Bool) :
    ∃ ps a, releaseRefs s sl w torn = { s with partitions := ps, admin := a } := by
  have ht : ∃ ps, (if torn then markTorn s (refA sl.entry) else s) = { s with partitions := ps } := by
    split
    · exact markTorn_eq s _
    · exact ⟨_, rfl⟩
  obtain ⟨p0, h0⟩ := ht
  unfold releaseRefs
  split
  · exact ⟨_, _, rfl⟩
  · simp only [h0]
    obtain ⟨p1, h1⟩ := dropRef_eq { s with partitions := p0 } (refA sl.entry) w
    obtain ⟨p2, a2, h2⟩ := freeIfReleased_eq (dropRef { s with partitions := p0 } (refA sl.entry) w) (refA sl.entry)
    exact ⟨p2, a2, by rw [h2, h1]⟩
  · simp only [h0]
    obtain ⟨p1, h1⟩ := dropRef_eq { s with partitions := p0 } (refA sl.entry) w
    obtain ⟨p2, h2⟩ := dropRef_eq (dropRef { s with partitions := p0 } (refA sl.entry) w) (refB sl.entry) false
    obtain ⟨p3, a3, h3⟩ :=
      freeIfReleased_eq (dropRef (dropRef { s with partitions := p0 } (refA sl.entry) w) (refB sl.entry) false)
        (refA sl.entry)
    obtain ⟨p4, a4, h4⟩ :=
      freeIfReleased_eq
        (freeIfReleased (dropRef (dropRef { s with partitions := p0 } (refA sl.entry) w) (refB sl.entry) false)
          (refA sl.entry)) (refB sl.entry)
    exact ⟨p4, a4, by rw [h4, h3, h2, h1]⟩

/-! ### Slots -/

theorem noteTerminated_eq (s : State) (sl : Slot) (st : Status) :
    ∃ w, noteTerminated s sl st = { s with ctl := { s.ctl with working := w } } := by
  unfold noteTerminated
  split <;> exact ⟨_, rfl⟩

theorem endInChannel_eq (s : State) (sl : Slot) (st : Status) :
    ∃ cs w, endInChannel s sl st = { s with channels := cs, ctl := { s.ctl with working := w } } := by
  unfold endInChannel
  simp only
  obtain ⟨w, h⟩ := noteTerminated_eq
    (s.setChan sl.chan
      { (s.chan sl.chan).ended st with
        held := ((s.chan sl.chan).ended st).held ++ [slotCompletion sl st], slot := none }) sl st
  exact ⟨_, w, by rw [h]; rfl⟩

/-- An end happening changes partitions, the admin command that waits for them, the channel, the working record and the
slot. -/
theorem endSlot_eq (s : State) (k : Fin 4) (st : Status) :
    ∃ ps a cs w ss,
      endSlot s k st =
        { s with
          partitions := ps, admin := a, channels := cs, slots := ss, ctl := { s.ctl with working := w } } := by
  unfold endSlot
  simp only
  obtain ⟨ps, a, h⟩ := releaseRefs_eq s (s.slot k)
    (match descKind (s.slot k).entry with
      | some k => k.writes
      | none => false) (tearsPartition (s.slot k) st)
  have h' : endReferences s (s.slot k) st = { s with partitions := ps, admin := a } := h
  split
  · exact ⟨ps, a, _, _, _, by rw [h']; rfl⟩
  · obtain ⟨cs, w, h2⟩ := endInChannel_eq (endReferences s (s.slot k) st) (s.slot k) st
    exact ⟨ps, a, cs, w, _, by rw [h2, h']; rfl⟩

theorem runSlot_eq (s : State) (k : Fin 4) :
    ∃ ps a cs w ss,
      runSlot s k =
        { s with
          partitions := ps, admin := a, channels := cs, slots := ss, ctl := { s.ctl with working := w } } := by
  unfold runSlot
  simp only
  split
  · obtain ⟨ps, a, cs, w, ss, h⟩ :=
      endSlot_eq (s.setSlot k { s.slot k with state := .ending, cause := .complete }) k .ok
    exact ⟨ps, a, cs, w, ss, by rw [h]; rfl⟩
  · split
    · split <;> exact ⟨_, _, _, _, _, rfl⟩
    · exact ⟨_, _, _, _, _, rfl⟩

theorem finishSlot_eq (s : State) (k : Fin 4) :
    ∃ ps a cs w ss,
      finishSlot s k =
        { s with
          partitions := ps, admin := a, channels := cs, slots := ss, ctl := { s.ctl with working := w } } := by
  unfold finishSlot
  simp only
  split
  · exact ⟨_, _, _, _, _, rfl⟩
  · split
    · exact ⟨_, _, _, _, _, rfl⟩
    · split
      · exact ⟨_, _, _, _, _, rfl⟩
      · exact endSlot_eq s k _

theorem advanceSlot_eq (s : State) (k : Fin 4) :
    ∃ ps a cs w ss,
      advanceSlot s k =
        { s with
          partitions := ps, admin := a, channels := cs, slots := ss, ctl := { s.ctl with working := w } } := by
  unfold advanceSlot
  split
  · exact ⟨_, _, _, _, _, rfl⟩
  · exact ⟨_, _, _, _, _, rfl⟩
  · exact runSlot_eq s k
  · exact finishSlot_eq s k

theorem leaveRun_eq (s : State) (k : Fin 4) (sl : Slot) :
    ∃ ps a cs w ss ts,
      leaveRun s k sl =
        { s with
          partitions := ps, admin := a, channels := cs, slots := ss, ctl := { s.ctl with working := w },
          link := { s.link with tags := ts } } := by
  obtain ⟨ps, a, cs, w, ss, h⟩ :=
    finishSlot_eq ((orphanReads s k).setSlot k { trimDeliveries sl with state := .ending }) k
  exact ⟨ps, a, cs, w, ss, _, by rw [leaveRun, h]; rfl⟩

theorem stopSlot_eq (s : State) (k : Fin 4) (q : StopRequest) :
    ∃ ps a cs w ss ts,
      stopSlot s k q =
        { s with
          partitions := ps, admin := a, channels := cs, slots := ss, ctl := { s.ctl with working := w },
          link := { s.link with tags := ts } } := by
  unfold stopSlot
  simp only
  split
  · exact ⟨_, _, _, _, _, _, rfl⟩
  · obtain ⟨ps, a, cs, w, ss, h⟩ :=
      endSlot_eq (s.setSlot k { s.slot k with state := .ending, cause := q.cause, stop := q }) k
        (Slot.status { s.slot k with cause := q.cause })
    exact ⟨ps, a, cs, w, ss, _, by rw [h]; rfl⟩
  · exact leaveRun_eq s k _
  · exact ⟨_, _, _, _, _, _, rfl⟩

theorem foldl_stopSlot_eq (l : List (Fin 4)) (s : State) (q : StopRequest) :
    ∃ ps a cs w ss ts,
      l.foldl (fun t k => stopSlot t k q) s =
        { s with
          partitions := ps, admin := a, channels := cs, slots := ss, ctl := { s.ctl with working := w },
          link := { s.link with tags := ts } } := by
  induction l generalizing s with
  | nil => exact ⟨_, _, _, _, _, _, rfl⟩
  | cons k l ih =>
    obtain ⟨ps, a, cs, w, ss, ts, h⟩ := stopSlot_eq s k q
    obtain ⟨ps', a', cs', w', ss', ts', h'⟩ := ih (stopSlot s k q)
    exact ⟨ps', a', cs', w', ss', ts', by rw [List.foldl_cons, h', h]⟩

theorem stopAllSlots_eq (s : State) (q : StopRequest) :
    ∃ ps a cs w ss ts,
      stopAllSlots s q =
        { s with
          partitions := ps, admin := a, channels := cs, slots := ss, ctl := { s.ctl with working := w },
          link := { s.link with tags := ts } } := foldl_stopSlot_eq allSlots s q

theorem refuseSlot_eq (s : State) (k : Fin 4) (st : Status) :
    ∃ ps a cs w ss,
      refuseSlot s k st =
        { s with
          partitions := ps, admin := a, channels := cs, slots := ss, ctl := { s.ctl with working := w } } := by
  obtain ⟨ps, a, cs, w, ss, h⟩ :=
    endSlot_eq (s.setSlot k { s.slot k with state := .ending, cause := .status st }) k st
  exact ⟨ps, a, cs, w, ss, by rw [refuseSlot, h]; rfl⟩

theorem carryOutMark_eq (s : State) (c : Fin 16) (r : Record) :
    ∃ cs, (carryOutMark s c r).1 = { s with channels := cs } := by
  unfold carryOutMark
  simp only
  split <;> exact ⟨_, rfl⟩

theorem checkFields_eq (s : State) (k : Fin 4) :
    ∃ ps a cs w ss,
      checkFields s k =
        { s with
          partitions := ps, admin := a, channels := cs, slots := ss, ctl := { s.ctl with working := w } } := by
  unfold checkFields
  simp only
  split
  · exact refuseSlot_eq s k _
  · split
    · obtain ⟨c0, h0⟩ := carryOutMark_eq s (s.slot k).chan (s.slot k).entry
      obtain ⟨ps, a, cs, w, ss, h⟩ :=
        endSlot_eq
          ((carryOutMark s (s.slot k).chan (s.slot k).entry).1.setSlot k
            { s.slot k with state := .ending, cause := .complete }) k
          (carryOutMark s (s.slot k).chan (s.slot k).entry).2
      exact ⟨ps, a, cs, w, ss, by rw [h, h0]; rfl⟩
    · exact ⟨_, _, _, _, _, rfl⟩

/-! ### The ends of host reads -/

theorem slotReadDone_eq (s : State) (k : Fin 4) (pos : Nat) (bs : List Byte) :
    ∃ ps a cs w ss,
      slotReadDone s k pos bs =
        { s with
          partitions := ps, admin := a, channels := cs, slots := ss, ctl := { s.ctl with working := w } } := by
  unfold slotReadDone
  simp only
  split
  · obtain ⟨ps, a, cs, w, ss, h⟩ :=
      advanceSlot_eq
        (s.setSlot k
          { s.slot k with
            reads := (s.slot k).reads - 1, inHand := insertPiece { pos := pos, data := bs } (s.slot k).inHand }) k
    exact ⟨ps, a, cs, w, ss, by rw [h]; rfl⟩
  · exact ⟨_, _, _, _, _, rfl⟩

theorem channelFetchDone_eq (s : State) (c : Fin 16) (bs : List Byte) :
    ∃ cs fs, channelFetchDone s c bs = { s with channels := cs, fetch := fs } := by
  unfold channelFetchDone
  split
  · split <;> exact ⟨_, _, rfl⟩
  all_goals exact ⟨_, _, rfl⟩

theorem channelFetchFailed_eq (s : State) (c : Fin 16) :
    ∃ cs fs e q,
      channelFetchFailed s c =
        { s with channels := cs, fetch := fs, events := e, link := { s.link with outbound := q } } := by
  unfold channelFetchFailed
  split
  · split
    · simp only
      obtain ⟨e, q, h⟩ :=
        raise_eq
          ((s.setChan c
              (if (s.chan c).state = .running ∨ (s.chan c).state = .paused then { s.chan c with state := .halted }
              else s.chan c)).setFetch c .empty) .fetchError
      exact ⟨_, _, e, q, by rw [h]; rfl⟩
    · exact ⟨_, _, _, _, rfl⟩
  all_goals exact ⟨_, _, _, _, rfl⟩

theorem adminFetchDone_eq (s : State) (bs : List Byte) :
    ∃ a f, adminFetchDone s bs = { s with admin := a, adminFetch := f } := by
  unfold adminFetchDone
  split
  · split <;> exact ⟨_, _, rfl⟩
  all_goals exact ⟨_, _, rfl⟩

theorem adminFetchFailed_eq (s : State) :
    ∃ a f e q,
      adminFetchFailed s =
        { s with admin := a, adminFetch := f, events := e, link := { s.link with outbound := q } } := by
  unfold adminFetchFailed
  split
  · split
    · obtain ⟨e, q, h⟩ := raise_eq { s with adminFetch := .empty, admin := s.admin.failed } .adminFault
      exact ⟨_, _, e, q, by rw [h]⟩
    · exact ⟨_, _, _, _, rfl⟩
  all_goals exact ⟨_, _, _, _, rfl⟩

theorem readDone_eq (s : State) (x : Tag) (bs : List Byte) :
    ∃ ps a cs w ss fs f,
      readDone s x bs =
        { s with
          partitions := ps, admin := a, channels := cs, slots := ss, fetch := fs, adminFetch := f,
          ctl := { s.ctl with working := w } } := by
  unfold readDone
  split
  · exact ⟨_, _, _, _, _, _, _, rfl⟩
  · split
    · exact ⟨_, _, _, _, _, _, _, rfl⟩
    · obtain ⟨ps, a, cs, w, ss, h⟩ := slotReadDone_eq s _ x.pos bs
      exact ⟨ps, a, cs, w, ss, _, _, h⟩
  · obtain ⟨a, f, h⟩ := adminFetchDone_eq s bs
    exact ⟨_, a, _, _, _, _, f, h⟩
  · obtain ⟨cs, fs, h⟩ := channelFetchDone_eq s _ bs
    exact ⟨_, _, cs, _, _, fs, _, h⟩

theorem readFailed_eq (s : State) (x : Tag) :
    ∃ ps a cs w ss fs f e q ts,
      readFailed s x =
        { s with
          partitions := ps, admin := a, channels := cs, slots := ss, fetch := fs, adminFetch := f, events := e,
          ctl := { s.ctl with working := w }, link := { s.link with outbound := q, tags := ts } } := by
  unfold readFailed
  split
  · exact ⟨_, _, _, _, _, _, _, _, _, _, rfl⟩
  · split
    · exact ⟨_, _, _, _, _, _, _, _, _, _, rfl⟩
    · unfold slotReadFailed
      simp only
      split
      · obtain ⟨ps, a, cs, w, ss, ts, h⟩ := leaveRun_eq s _ _
        exact ⟨ps, a, cs, w, ss, _, _, _, _, ts, by rw [h]⟩
      · exact ⟨_, _, _, _, _, _, _, _, _, _, rfl⟩
  · obtain ⟨a, f, e, q, h⟩ := adminFetchFailed_eq s
    exact ⟨_, a, _, _, _, _, f, e, q, _, by rw [h]⟩
  · obtain ⟨cs, fs, e, q, h⟩ := channelFetchFailed_eq s _
    exact ⟨_, _, cs, _, _, fs, _, e, q, _, by rw [h]⟩

theorem failTag_eq (s : State) (t : Fin 16) :
    ∃ ps a cs w ss fs f e q ts,
      failTag s t =
        { s with
          partitions := ps, admin := a, channels := cs, slots := ss, fetch := fs, adminFetch := f, events := e,
          ctl := { s.ctl with working := w }, link := { s.link with outbound := q, tags := ts } } := by
  unfold failTag
  simp only
  split
  · obtain ⟨ps, a, cs, w, ss, fs, f, e, q, ts, h⟩ := readFailed_eq (s.setTag t Tag.none) (s.tag t)
    exact ⟨ps, a, cs, w, ss, fs, f, e, q, ts, by rw [h]; rfl⟩
  · exact ⟨_, _, _, _, _, _, _, _, _, _, rfl⟩

theorem foldl_failTag_eq (l : List (Fin 16)) (s : State) :
    ∃ ps a cs w ss fs f e q ts,
      l.foldl failTag s =
        { s with
          partitions := ps, admin := a, channels := cs, slots := ss, fetch := fs, adminFetch := f, events := e,
          ctl := { s.ctl with working := w }, link := { s.link with outbound := q, tags := ts } } := by
  induction l generalizing s with
  | nil => exact ⟨_, _, _, _, _, _, _, _, _, _, rfl⟩
  | cons t l ih =>
    obtain ⟨ps, a, cs, w, ss, fs, f, e, q, ts, h⟩ := failTag_eq s t
    obtain ⟨ps', a', cs', w', ss', fs', f', e', q', ts', h'⟩ := ih (failTag s t)
    exact ⟨ps', a', cs', w', ss', fs', f', e', q', ts', by rw [List.foldl_cons, h', h]⟩

theorem failAllTags_eq (s : State) :
    ∃ ps a cs w ss fs f e q ts,
      failAllTags s =
        { s with
          partitions := ps, admin := a, channels := cs, slots := ss, fetch := fs, adminFetch := f, events := e,
          ctl := { s.ctl with working := w }, link := { s.link with outbound := q, tags := ts } } :=
  foldl_failTag_eq allTags s

/-! ### Health -/

theorem offerLine_eq (s : State) (a : Nat) :
    ∃ hs e q, offerLine s a = { s with health := hs, events := e, link := { s.link with outbound := q } } := by
  unfold offerLine
  split
  · exact ⟨_, _, _, rfl⟩
  · split
    · obtain ⟨e, q, h⟩ := raise_eq { s with health := { s.health with lines := s.health.lines ++ [a] } } .errorListAdded
      exact ⟨_, e, q, by rw [h]⟩
    · exact ⟨_, _, _, rfl⟩

theorem foldl_offerLine_eq (l : List Nat) (s : State) :
    ∃ hs e q, l.foldl offerLine s = { s with health := hs, events := e, link := { s.link with outbound := q } } := by
  induction l generalizing s with
  | nil => exact ⟨_, _, _, rfl⟩
  | cons a l ih =>
    obtain ⟨hs, e, q, h⟩ := offerLine_eq s a
    obtain ⟨hs', e', q', h'⟩ := ih (offerLine s a)
    exact ⟨hs', e', q', by rw [List.foldl_cons, h', h]⟩

theorem reportFindings_eq (s : State) (ws : List (Nat × Finding)) :
    ∃ hs e q, reportFindings s ws = { s with health := hs, events := e, link := { s.link with outbound := q } } := by
  unfold reportFindings
  simp only
  obtain ⟨hs, e, q, h⟩ :=
    foldl_offerLine_eq (badLines ws)
      { s with
        health :=
          { s.health with
            correctable := raised 4294967295 (countWords ws .corrected) s.health.correctable
            uncorrectable := raised 4294967295 (countWords ws .uncorrectable) s.health.uncorrectable } }
  exact ⟨hs, e, q, by rw [h]⟩

/-! ### Passages -/

theorem dropChannel_eq (s : State) (c : Fin 16) :
    ∃ cs fs rs, dropChannel s c = { s with channels := cs, fetch := fs, rings := rs } := ⟨_, _, _, rfl⟩

theorem endDeletion_eq (s : State) :
    ∃ cs fs rs a, endDeletion s = { s with channels := cs, fetch := fs, rings := rs, admin := a } := by
  unfold endDeletion
  split
  · exact ⟨_, _, _, _, rfl⟩
  · split
    · obtain ⟨a, h⟩ := handOverAdmin_eq (dropChannel s _) .ok (s.chan _).completed
      obtain ⟨cs, fs, rs, h'⟩ := dropChannel_eq s _
      exact ⟨cs, fs, rs, a, by rw [h, h']⟩
    · exact ⟨_, _, _, _, rfl⟩

theorem foldl_quiesceChannel_eq (l : List (Fin 16)) (s : State) :
    ∃ cs fs rs, l.foldl quiesceChannel s = { s with channels := cs, fetch := fs, rings := rs } := by
  induction l generalizing s with
  | nil => exact ⟨_, _, _, rfl⟩
  | cons c l ih =>
    have h1 : ∃ cs fs rs, quiesceChannel s c = { s with channels := cs, fetch := fs, rings := rs } := by
      unfold quiesceChannel
      simp only
      split <;> exact ⟨_, _, _, rfl⟩
    obtain ⟨cs, fs, rs, h⟩ := h1
    obtain ⟨cs', fs', rs', h'⟩ := ih (quiesceChannel s c)
    exact ⟨cs', fs', rs', by rw [List.foldl_cons, h', h]⟩

theorem endQuiesce_eq (s : State) :
    ∃ rs q, endQuiesce s =
      { s with
        rings := rs, admin := Admin.none, adminFetch := s.adminFetch.orphan,
        link := { s.link with outbound := q }, ctl := { s.ctl with op := .standby } } := by
  obtain ⟨q, rs, h⟩ := signalAll_eq s
  exact ⟨_, q, by rw [endQuiesce, h]; rfl⟩

theorem foldl_terminateFetched_eq (l : List (Fin 16)) (s : State) :
    ∃ cs w, l.foldl terminateFetched s = { s with channels := cs, ctl := { s.ctl with working := w } } := by
  induction l generalizing s with
  | nil => exact ⟨_, _, rfl⟩
  | cons c l ih =>
    have h1 : ∃ cs w, terminateFetched s c = { s with channels := cs, ctl := { s.ctl with working := w } } := by
      unfold terminateFetched
      simp only
      split <;> exact ⟨_, _, rfl⟩
    obtain ⟨cs, w, h⟩ := h1
    obtain ⟨cs', w', h'⟩ := ih (terminateFetched s c)
    exact ⟨cs', w', by rw [List.foldl_cons, h', h]⟩

theorem beginSettle_eq (s : State) :
    ∃ cs fs rs q w a, beginSettle s =
      { s with
        channels := cs, fetch := fs, rings := rs, admin := a, adminFetch := s.adminFetch.orphan,
        link := { s.link with outbound := q }, port := { s.port with entryRequest := true }
        ctl :=
          { s.ctl with phase := .settle, deadline := none, expired := false, adminDone := none, working := w } } := by
  obtain ⟨q, rs, h⟩ := signalAll_eq s
  unfold beginSettle
  simp only [h]
  exact ⟨_, _, _, q, _, _, rfl⟩

theorem endFlush_eq (s : State) (o : FlushOutcome) :
    ∃ cs fs rs q w a, endFlush s o =
      { s with
        channels := cs, fetch := fs, rings := rs, admin := a, adminFetch := s.adminFetch.orphan,
        link := { s.link with outbound := q }, port := { s.port with entryRequest := true }
        ctl :=
          { s.ctl with phase := .settle, deadline := none, expired := false, adminDone := none, working := w } } := by
  obtain ⟨cs, fs, rs, q, w, a, h⟩ :=
    beginSettle_eq { s with ctl := { s.ctl with working := { s.ctl.working with outcome := o } } }
  exact ⟨cs, fs, rs, q, w, a, by rw [endFlush, h]⟩

/-- The part of the state that passages leave as it was: everything but the channels, fetch records, rings, the admin
ring, the outbound queue, the State Controller and the entry request. -/
def State.besidePassages (s : State) : State :=
  { s with
    channels := Vector.replicate 16 Channel.none, fetch := Vector.replicate 16 .empty,
    rings := Vector.replicate 9 Ring.none, admin := Admin.none, adminFetch := .empty,
    link := { s.link with outbound := [] }, port := { s.port with entryRequest := false }
    ctl := State.reset.ctl }

theorem stopStep_entryLaw {s : State} (h : s.EntryLaw) :
    (stopStep s).EntryLaw ∧ (stopStep s).besidePassages = s.besidePassages := by
  unfold stopStep
  split
  · rename_i ho
    obtain ⟨cs, w, h1⟩ := foldl_terminateFetched_eq allChannels s
    simp only [h1]
    split
    · unfold endStop
      split
      · split
        · obtain ⟨cs', fs, rs, q, w', a, h2⟩ :=
            endFlush_eq { s with channels := cs, ctl := { s.ctl with working := w } } .deadline
          rw [h2]
          exact ⟨fun _ => ho.1, rfl⟩
        · exact ⟨h, rfl⟩
      · obtain ⟨cs', fs, rs, q, w', a, h2⟩ :=
          beginSettle_eq { s with channels := cs, ctl := { s.ctl with working := w } }
        rw [h2]
        exact ⟨fun _ => ho.1, rfl⟩
    · exact ⟨h, rfl⟩
  · exact ⟨h, rfl⟩

theorem flushStep_entryLaw {s : State} (h : s.EntryLaw) :
    (flushStep s).EntryLaw ∧ (flushStep s).besidePassages = s.besidePassages := by
  unfold flushStep
  split
  · rename_i ho
    obtain ⟨cs', fs, rs, q, w', a, h2⟩ := endFlush_eq s .complete
    rw [h2]
    exact ⟨fun _ => ho.1, rfl⟩
  · exact ⟨h, rfl⟩

theorem quiesceStep_entryLaw {s : State} (h : s.EntryLaw) :
    (quiesceStep s).EntryLaw ∧ (quiesceStep s).besidePassages = s.besidePassages := by
  unfold quiesceStep
  split
  · rename_i ho
    have he : s.port.entryRequest ≠ true := fun e => by have := h e; rw [ho] at this; cases this
    obtain ⟨cs, fs, rs, h1⟩ := foldl_quiesceChannel_eq allChannels s
    simp only [h1]
    split
    · obtain ⟨rs', q, h2⟩ := endQuiesce_eq { s with channels := cs, fetch := fs, rings := rs }
      rw [h2]
      exact ⟨fun e => absurd e he, rfl⟩
    · exact ⟨fun e => absurd e he, rfl⟩
  · exact ⟨h, rfl⟩

/-- The passages of a happening keep the law that self-refresh entry is requested in DRAINING alone, and leave everything
but channels, rings, the admin ring, the outbound queue and the State Controller as it was. -/
theorem settlePhases_entryLaw {s : State} (h : s.EntryLaw) :
    (settlePhases s).EntryLaw ∧ (settlePhases s).besidePassages = s.besidePassages := by
  obtain ⟨cs, fs, rs, a, h1⟩ := endDeletion_eq s
  have e1 : (endDeletion s).EntryLaw := by rw [h1]; exact h
  have p1 : (endDeletion s).besidePassages = s.besidePassages := by rw [h1]; rfl
  obtain ⟨e2, p2⟩ := quiesceStep_entryLaw e1
  obtain ⟨e3, p3⟩ := stopStep_entryLaw e2
  obtain ⟨e4, p4⟩ := flushStep_entryLaw e3
  exact ⟨e4, by rw [settlePhases, p4, p3, p2, p1]⟩

/-- A command whose meaning is a happening concluded on `x` answers `x` with its passages, but for grants. -/
theorem concludes_of_next {i : Instr} {s x : State} (hx : exec i s = .next (conclude x)) (he : x.EntryLaw) :
    Concludes i s x := ⟨_, hx, besideGrants_conclude (settlePhases_entryLaw he).1⟩

end Sys2Proof.Machine
end

