-- ==== Sys2Proof/Laws/PerInstr.lean ====
section
/-! SUPPORT. Statements made for every command, one lemma for each constructor. `Shape`: a command that a write of the
register window spells is a register write, and well-formed. -/

namespace Sys2Proof.Laws

/-- The command is a write of the register window (R166). -/
def fromWindow : Instr → Bool
  | .enable | .quiesce | .functionReset | .adminRingWrite _ _ _ | .notifySqTail _ _ | .notifyCqHead _ _
  | .heartbeatWrite _ | .eventsWrite _ | .registerWriteIgnored _ _ _ => true
  | .powerOn | .memoryInitialisation _ | .warmStart | .coreLogicPowerDown | .pwrWarnAsserted | .linkDown
  | .linkUp | .linkReset | .messageEnable _ _ | .definePartition | .freezePartition | .releasePartition
  | .clearTorn | .getPartitions | .createChannel | .deleteChannel | .pauseChannel | .resumeChannel | .createCq
  | .deleteCq | .setRefresh | .setScrub | .getHealth | .clearErrors | .setMonitor | .setLinkTimeout | .setDrain
  | .enterRetention | .getRetentionRecord | .claimRetained | .discardRetained | .unknownCommand
  | .slotSchedulerChoice | .presentation _ | .readBurst _ | .writeBurst | .readModifyWrite _ | .refresh
  | .scrubLine _ | .selfRefreshEntry | .selfRefreshExit | .hostReadData _ _ | .readErrorReturn _
  | .linkReadTimeout _ | .quarantineEnd _ | .intervalExpiry | .scrubTick | .delayTimerExpiry _
  | .periodTimerExpiry | .graceTimerExpiry | .drainDeadlineExpiry | .completionWrite _ | .completionDiscard _
  | .deleteConversion _ | .pwrWarnDeasserted | .mainPowerLoss | .mainPowerReturn | .backupSupplyFailure => false

/-- The command, if a write of the register window spells it, is a register write and well-formed (R175, R176). -/
def Shape.Statement (i : Instr) : Prop :=
  ∀ offset width value, decodeRegisterWrite offset width value = i → i.wellFormed = true ∧ fromWindow i = true

theorem decodeControl_shape (offset : Nat) (value : BitVec 64) (h : offset = 0x10) :
    (decodeControl offset 4 value).wellFormed = true ∧ fromWindow (decodeControl offset 4 value) = true := by
  subst h
  unfold decodeControl
  have hlt : (value.extractLsb' 0 2).toNat < 4 := (value.extractLsb' 0 2).isLt
  split
  · exact ⟨rfl, rfl⟩
  · exact ⟨rfl, rfl⟩
  · exact ⟨rfl, rfl⟩
  · rename_i h1 h2 h3
    have h0 : value.extractLsb' 0 2 = 0#2 := by
      apply BitVec.eq_of_toNat_eq
      show (value.extractLsb' 0 2).toNat = 0
      generalize (value.extractLsb' 0 2).toNat = n at h1 h2 h3 hlt
      have e1 : n ≠ 1 := fun e => h1 e
      have e2 : n ≠ 2 := fun e => h2 e
      have e3 : n ≠ 3 := fun e => h3 e
      omega
    simp [Instr.wellFormed, writeTaken, fromWindow, h0]

theorem decodeRegisterWrite_shape (offset width : Nat) (value : BitVec 64) :
    (decodeRegisterWrite offset width value).wellFormed = true ∧
      fromWindow (decodeRegisterWrite offset width value) = true := by
  unfold decodeRegisterWrite
  split
  case h_4 => exact decodeControl_shape _ _ rfl
  case h_5 =>
    unfold decodeNotify
    split <;> exact ⟨rfl, rfl⟩
  case h_14 =>
    refine ⟨?_, rfl⟩
    simp only [Instr.wellFormed, writeTaken, Bool.not_eq_true', Bool.or_eq_false_iff, Bool.and_eq_false_iff,
      beq_eq_false_iff_ne, ne_eq]
    constructor
    · by_cases hw : width = 8
      · subst hw; right; simp_all
      · exact .inl hw
    · by_cases hw : width = 4
      · subst hw; right; simp_all
      · exact .inl hw
  all_goals exact ⟨rfl, rfl⟩

theorem Shape.powerOn : Shape.Statement .powerOn :=
  fun o w v h => h ▸ decodeRegisterWrite_shape o w v
theorem Shape.memoryInitialisation (success : Bool) : Shape.Statement (.memoryInitialisation success) :=
  fun o w v h => h ▸ decodeRegisterWrite_shape o w v
theorem Shape.warmStart : Shape.Statement .warmStart :=
  fun o w v h => h ▸ decodeRegisterWrite_shape o w v
theorem Shape.coreLogicPowerDown : Shape.Statement .coreLogicPowerDown :=
  fun o w v h => h ▸ decodeRegisterWrite_shape o w v
theorem Shape.pwrWarnAsserted : Shape.Statement .pwrWarnAsserted :=
  fun o w v h => h ▸ decodeRegisterWrite_shape o w v
theorem Shape.linkDown : Shape.Statement .linkDown :=
  fun o w v h => h ▸ decodeRegisterWrite_shape o w v
theorem Shape.linkUp : Shape.Statement .linkUp :=
  fun o w v h => h ▸ decodeRegisterWrite_shape o w v
theorem Shape.linkReset : Shape.Statement .linkReset :=
  fun o w v h => h ▸ decodeRegisterWrite_shape o w v
theorem Shape.messageEnable (enabled : Bool) (granted : VectorsGranted) : Shape.Statement (.messageEnable enabled granted) :=
  fun o w v h => h ▸ decodeRegisterWrite_shape o w v
theorem Shape.enable : Shape.Statement .enable :=
  fun o w v h => h ▸ decodeRegisterWrite_shape o w v
theorem Shape.quiesce : Shape.Statement .quiesce :=
  fun o w v h => h ▸ decodeRegisterWrite_shape o w v
theorem Shape.functionReset : Shape.Statement .functionReset :=
  fun o w v h => h ▸ decodeRegisterWrite_shape o w v
theorem Shape.adminRingWrite (field : AdminRingField) (part : AccessPart) (value : BitVec 64) : Shape.Statement (.adminRingWrite field part value) :=
  fun o w v h => h ▸ decodeRegisterWrite_shape o w v
theorem Shape.notifySqTail (ring : BitVec 8) (index : BitVec 16) : Shape.Statement (.notifySqTail ring index) :=
  fun o w v h => h ▸ decodeRegisterWrite_shape o w v
theorem Shape.notifyCqHead (ring : BitVec 8) (index : BitVec 16) : Shape.Statement (.notifyCqHead ring index) :=
  fun o w v h => h ▸ decodeRegisterWrite_shape o w v
theorem Shape.heartbeatWrite (value : BitVec 32) : Shape.Statement (.heartbeatWrite value) :=
  fun o w v h => h ▸ decodeRegisterWrite_shape o w v
theorem Shape.eventsWrite (value : BitVec 32) : Shape.Statement (.eventsWrite value) :=
  fun o w v h => h ▸ decodeRegisterWrite_shape o w v
theorem Shape.registerWriteIgnored (offset : Nat) (width : Nat) (value : BitVec 64) : Shape.Statement (.registerWriteIgnored offset width value) :=
  fun o w v h => h ▸ decodeRegisterWrite_shape o w v
theorem Shape.definePartition : Shape.Statement .definePartition :=
  fun o w v h => h ▸ decodeRegisterWrite_shape o w v
theorem Shape.freezePartition : Shape.Statement .freezePartition :=
  fun o w v h => h ▸ decodeRegisterWrite_shape o w v
theorem Shape.releasePartition : Shape.Statement .releasePartition :=
  fun o w v h => h ▸ decodeRegisterWrite_shape o w v
theorem Shape.clearTorn : Shape.Statement .clearTorn :=
  fun o w v h => h ▸ decodeRegisterWrite_shape o w v
theorem Shape.getPartitions : Shape.Statement .getPartitions :=
  fun o w v h => h ▸ decodeRegisterWrite_shape o w v
theorem Shape.createChannel : Shape.Statement .createChannel :=
  fun o w v h => h ▸ decodeRegisterWrite_shape o w v
theorem Shape.deleteChannel : Shape.Statement .deleteChannel :=
  fun o w v h => h ▸ decodeRegisterWrite_shape o w v
theorem Shape.pauseChannel : Shape.Statement .pauseChannel :=
  fun o w v h => h ▸ decodeRegisterWrite_shape o w v
theorem Shape.resumeChannel : Shape.Statement .resumeChannel :=
  fun o w v h => h ▸ decodeRegisterWrite_shape o w v
theorem Shape.createCq : Shape.Statement .createCq :=
  fun o w v h => h ▸ decodeRegisterWrite_shape o w v
theorem Shape.deleteCq : Shape.Statement .deleteCq :=
  fun o w v h => h ▸ decodeRegisterWrite_shape o w v
theorem Shape.setRefresh : Shape.Statement .setRefresh :=
  fun o w v h => h ▸ decodeRegisterWrite_shape o w v
theorem Shape.setScrub : Shape.Statement .setScrub :=
  fun o w v h => h ▸ decodeRegisterWrite_shape o w v
theorem Shape.getHealth : Shape.Statement .getHealth :=
  fun o w v h => h ▸ decodeRegisterWrite_shape o w v
theorem Shape.clearErrors : Shape.Statement .clearErrors :=
  fun o w v h => h ▸ decodeRegisterWrite_shape o w v
theorem Shape.setMonitor : Shape.Statement .setMonitor :=
  fun o w v h => h ▸ decodeRegisterWrite_shape o w v
theorem Shape.setLinkTimeout : Shape.Statement .setLinkTimeout :=
  fun o w v h => h ▸ decodeRegisterWrite_shape o w v
theorem Shape.setDrain : Shape.Statement .setDrain :=
  fun o w v h => h ▸ decodeRegisterWrite_shape o w v
theorem Shape.enterRetention : Shape.Statement .enterRetention :=
  fun o w v h => h ▸ decodeRegisterWrite_shape o w v
theorem Shape.getRetentionRecord : Shape.Statement .getRetentionRecord :=
  fun o w v h => h ▸ decodeRegisterWrite_shape o w v
theorem Shape.claimRetained : Shape.Statement .claimRetained :=
  fun o w v h => h ▸ decodeRegisterWrite_shape o w v
theorem Shape.discardRetained : Shape.Statement .discardRetained :=
  fun o w v h => h ▸ decodeRegisterWrite_shape o w v
theorem Shape.unknownCommand : Shape.Statement .unknownCommand :=
  fun o w v h => h ▸ decodeRegisterWrite_shape o w v
theorem Shape.slotSchedulerChoice : Shape.Statement .slotSchedulerChoice :=
  fun o w v h => h ▸ decodeRegisterWrite_shape o w v
theorem Shape.presentation (slot : Fin 4) : Shape.Statement (.presentation slot) :=
  fun o w v h => h ▸ decodeRegisterWrite_shape o w v
theorem Shape.readBurst (findings : List Finding) : Shape.Statement (.readBurst findings) :=
  fun o w v h => h ▸ decodeRegisterWrite_shape o w v
theorem Shape.writeBurst : Shape.Statement .writeBurst :=
  fun o w v h => h ▸ decodeRegisterWrite_shape o w v
theorem Shape.readModifyWrite (finding : Finding) : Shape.Statement (.readModifyWrite finding) :=
  fun o w v h => h ▸ decodeRegisterWrite_shape o w v
theorem Shape.refresh : Shape.Statement .refresh :=
  fun o w v h => h ▸ decodeRegisterWrite_shape o w v
theorem Shape.scrubLine (findings : List Finding) : Shape.Statement (.scrubLine findings) :=
  fun o w v h => h ▸ decodeRegisterWrite_shape o w v
theorem Shape.selfRefreshEntry : Shape.Statement .selfRefreshEntry :=
  fun o w v h => h ▸ decodeRegisterWrite_shape o w v
theorem Shape.selfRefreshExit : Shape.Statement .selfRefreshExit :=
  fun o w v h => h ▸ decodeRegisterWrite_shape o w v
theorem Shape.hostReadData (tag : Fin 16) (bytes : List Byte) : Shape.Statement (.hostReadData tag bytes) :=
  fun o w v h => h ▸ decodeRegisterWrite_shape o w v
theorem Shape.readErrorReturn (tag : Fin 16) : Shape.Statement (.readErrorReturn tag) :=
  fun o w v h => h ▸ decodeRegisterWrite_shape o w v
theorem Shape.linkReadTimeout (tag : Fin 16) : Shape.Statement (.linkReadTimeout tag) :=
  fun o w v h => h ▸ decodeRegisterWrite_shape o w v
theorem Shape.quarantineEnd (tag : Fin 16) : Shape.Statement (.quarantineEnd tag) :=
  fun o w v h => h ▸ decodeRegisterWrite_shape o w v
theorem Shape.intervalExpiry : Shape.Statement .intervalExpiry :=
  fun o w v h => h ▸ decodeRegisterWrite_shape o w v
theorem Shape.scrubTick : Shape.Statement .scrubTick :=
  fun o w v h => h ▸ decodeRegisterWrite_shape o w v
theorem Shape.delayTimerExpiry (ring : Fin 9) : Shape.Statement (.delayTimerExpiry ring) :=
  fun o w v h => h ▸ decodeRegisterWrite_shape o w v
theorem Shape.periodTimerExpiry : Shape.Statement .periodTimerExpiry :=
  fun o w v h => h ▸ decodeRegisterWrite_shape o w v
theorem Shape.graceTimerExpiry : Shape.Statement .graceTimerExpiry :=
  fun o w v h => h ▸ decodeRegisterWrite_shape o w v
theorem Shape.drainDeadlineExpiry : Shape.Statement .drainDeadlineExpiry :=
  fun o w v h => h ▸ decodeRegisterWrite_shape o w v
theorem Shape.completionWrite (ring : Fin 9) : Shape.Statement (.completionWrite ring) :=
  fun o w v h => h ▸ decodeRegisterWrite_shape o w v
theorem Shape.completionDiscard (source : CompletionSource) : Shape.Statement (.completionDiscard source) :=
  fun o w v h => h ▸ decodeRegisterWrite_shape o w v
theorem Shape.deleteConversion (channel : Fin 16) : Shape.Statement (.deleteConversion channel) :=
  fun o w v h => h ▸ decodeRegisterWrite_shape o w v
theorem Shape.pwrWarnDeasserted : Shape.Statement .pwrWarnDeasserted :=
  fun o w v h => h ▸ decodeRegisterWrite_shape o w v
theorem Shape.mainPowerLoss : Shape.Statement .mainPowerLoss :=
  fun o w v h => h ▸ decodeRegisterWrite_shape o w v
theorem Shape.mainPowerReturn : Shape.Statement .mainPowerReturn :=
  fun o w v h => h ▸ decodeRegisterWrite_shape o w v
theorem Shape.backupSupplyFailure : Shape.Statement .backupSupplyFailure :=
  fun o w v h => h ▸ decodeRegisterWrite_shape o w v

end Sys2Proof.Laws
end

