-- ==== Sys2Proof/Laws/Settled.lean ====
section
/-! SUPPORT. What the end of a happening leaves: no tag request beside a FREE tag, and no request at a free port, which
settling it once more leaves as it is (R100, R169). -/

namespace Sys2Proof.Machine

/-! ### Tags (R169) -/

/-- No grant of a tag can be made: the link is DOWN, no tag is FREE, or no request stands. -/
def State.noGrant (s : State) : Prop := s.link.up = false ∨ freeTag s = none ∨ grantHolder s = none

/-- The FREE tags. -/
def freeTags (s : State) : Finset (Fin 16) := Finset.univ.filter fun g => (s.tag g).state = .free

theorem grantTags_of_noGrant {s : State} (h : s.noGrant) (n : Nat) : grantTags n s = s := by
  cases n with
  | zero => rfl
  | succ n =>
    unfold grantTags
    rcases h with h | h | h
    · simp [h]
    · simp [h]
    · split
      · split
        · rename_i hh; rw [h] at hh; cases hh
        · rfl
      · rfl

/-- A grant is made, or none can be. -/
theorem noGrant_or (s : State) :
    s.noGrant ∨ ∃ t h, s.link.up = true ∧ freeTag s = some t ∧ grantHolder s = some h := by
  unfold State.noGrant
  cases hu : s.link.up
  · exact .inl (.inl rfl)
  · cases ht : freeTag s with
    | none => exact .inl (.inr (.inl rfl))
    | some t =>
      cases hh : grantHolder s with
      | none => exact .inl (.inr (.inr rfl))
      | some h => exact .inr ⟨t, h, rfl, rfl, rfl⟩

theorem grantTags_succ {s : State} {t : Fin 16} {h : TagHolder} (hu : s.link.up = true) (ht : freeTag s = some t)
    (hh : grantHolder s = some h) (n : Nat) : grantTags (n + 1) s = grantTags n (grantTo s t h) := by
  conv_lhs => unfold grantTags
  simp [hu, ht, hh]

theorem grantHolder_ne_none {s : State} {h : TagHolder} (hh : grantHolder s = some h) : h ≠ .none := by
  rintro rfl
  unfold grantHolder at hh
  split at hh
  · cases hh
  · split at hh
    · cases hh
    · simp only [Option.map_eq_some_iff] at hh
      obtain ⟨_, _, hh⟩ := hh
      cases hh

/-- A grant takes one FREE tag and no other. -/
theorem grantTo_tag (s : State) (t : Fin 16) (h : TagHolder) (hn : h ≠ .none) (g : Fin 16) :
    ((grantTo s t h).tag g).state = if g = t then .waiting else (s.tag g).state := by
  cases h with
  | none => exact absurd rfl hn
  | slot k =>
    by_cases hg : g = t
    · subst hg; simp [grantTo, issueRead, State.setTag, State.setSlot, State.tag, get_set]
    · simp [grantTo, issueRead, State.setTag, State.setSlot, State.tag, get_set, hg]
  | admin =>
    by_cases hg : g = t
    · subst hg; simp [grantTo, issueRead, State.setTag, State.tag, get_set]
    · simp [grantTo, issueRead, State.setTag, State.tag, get_set, hg]
  | channel c =>
    by_cases hg : g = t
    · subst hg; simp [grantTo, issueRead, State.setTag, State.setFetch, State.tag, get_set]
    · simp [grantTo, issueRead, State.setTag, State.setFetch, State.tag, get_set, hg]

theorem freeTag_free {s : State} {t : Fin 16} (ht : freeTag s = some t) : (s.tag t).state = .free := by
  have h := List.find?_some ht
  simpa using h

theorem freeTag_of_freeTags_empty {s : State} (h : freeTags s = ∅) : freeTag s = none := by
  cases ht : freeTag s with
  | none => rfl
  | some t =>
    have hm : t ∈ freeTags s := by simp [freeTags, freeTag_free ht]
    simp [h] at hm

theorem freeTags_grantTo {s : State} {t : Fin 16} {h : TagHolder} (hn : h ≠ .none) :
    freeTags (grantTo s t h) = (freeTags s).erase t := by
  ext g
  by_cases hg : g = t <;> simp [freeTags, grantTo_tag s t h hn, hg]

theorem grantTags_noGrant (n : Nat) (s : State) (hc : (freeTags s).card ≤ n) : (grantTags n s).noGrant := by
  induction n generalizing s with
  | zero =>
    exact .inr (.inl (freeTag_of_freeTags_empty (Finset.card_eq_zero.mp (Nat.le_zero.mp hc))))
  | succ n ih =>
    obtain hs | ⟨t, h, hu, ht, hh⟩ := noGrant_or s
    · rwa [grantTags_of_noGrant hs]
    · rw [grantTags_succ hu ht hh]
      refine ih _ ?_
      have hm : t ∈ freeTags s := by simp [freeTags, freeTag_free ht]
      rw [freeTags_grantTo (grantHolder_ne_none hh), Finset.card_erase_of_mem hm]
      omega

/-- After a happening the link has no grant to make: no FREE tag and request stand together while it is UP (R169). -/
theorem settleLink_noGrant (s : State) : (settleLink s).noGrant :=
  grantTags_noGrant 16 _ ((Finset.card_le_univ _).trans (by simp))

/-! ### The port (R100) -/

/-- The port is granted to a slot, the refresh engine, the scrub unit or self-refresh entry, or to nobody. -/
theorem portChoice_cases (s : State) :
    (∃ k, portChoice s = .slot k) ∨ portChoice s = .refreshEngine ∨ portChoice s = .selfRefreshEntry ∨
      portChoice s = .scrubUnit ∨ portChoice s = .none := by
  unfold portChoice
  repeat' split
  all_goals simp

/-- Once settled, a port is held or nobody asks for it. -/
theorem settlePort_settled (s : State) :
    (settlePort s).port.holder ≠ .none ∨ portChoice (settlePort s) = .none := by
  unfold settlePort
  split
  · obtain ⟨k, h⟩ | h | h | h | h := portChoice_cases s <;> rw [h]
    · exact .inl (by simp [grantPort])
    · exact .inl (by simp [grantPort])
    · exact .inl (by simp [grantPort])
    · exact .inl (by simp [grantPort])
    · exact .inr h
  · left; assumption

/-- A port settled once is settled. -/
theorem settlePort_idem (s : State) : settlePort (settlePort s) = settlePort s := by
  have h := settlePort_settled s
  generalize settlePort s = t at h
  unfold settlePort
  split
  · obtain h | h := h
    · contradiction
    · rw [h]; rfl
  · rfl

/-- Every happening that is concluded leaves the port settled. -/
theorem conclude_settled (s : State) : settlePort (conclude s) = conclude s := settlePort_idem _

end Sys2Proof.Machine
end

