-- ==== Sys2Proof/Tests/Slice0.lean ====
section
/-! SUPPORT. Small tests of the model, with the spec's own figures where it gives them, and for every statement with
hypotheses a state that meets them, clause by clause. -/

-- One theorem at a time: many kernel evaluations at once ask for more threads than the memory limit allows.
set_option Elab.async false

namespace Sys2Proof.Tests

open Sys2Proof Sys2Proof.Machine

/-! ### Small states and records -/

/-- A record from its fields: byte offset and value, little-endian (R177, R178). -/
def record (fields : List (Nat × Nat)) : Record :=
  BitVec.ofNat 512 (fields.map fun f => f.2 * 256 ^ f.1).sum

/-- A descriptor with a tag of 7: kind, length, and the offset, generation and partition id of buffer reference A. -/
def descriptor (kind length offset : Nat) : Record :=
  record [(0, kind), (4, 7), (8, length), (16, offset), (21, 1), (22, 0)]

/-- An ACTIVE controller with the link UP, partition 0 OPEN over the first two units for channel 1, completion ring 1
ACTIVE and channel 1 RUNNING. -/
def act : State :=
  { State.reset with
    link := { State.reset.link with up := true }
    ctl := { State.reset.ctl with op := .active }
    memState := .ready
    port := { State.reset.port with holder := .none }
    partitions :=
      State.reset.partitions.set 0
        { Partition.freed 1 with state := .opened, length := 2, mask := 1, refs := 0, writeRefs := 0 }
    rings :=
      (State.reset.rings.set 0 (adminRing0 { submissionBase := 0, completionBase := 0, size := 8 })).set 1
        { adminRing0 { submissionBase := 0, completionBase := 64, size := 8 } with bound := 1 }
    channels :=
      State.reset.channels.set 0
        { Channel.none with state := .running, size := 8, ring := 1, weight := 1, clean := true }
    admin := { Admin.none with size := 8 } }

/-- The Admin Processor about to take one command. -/
def taking (fields : List (Nat × Nat)) : State :=
  { act with admin := { act.admin with queue := [{ entry := record fields, headAfter := 1 }] } }

/-- The command that `taking` holds. -/
def taken (fields : List (Nat × Nat)) : Fetched := { entry := record fields, headAfter := 1 }

/-- A reading of what an outcome holds; `none` where the command stops. -/
def after {α : Type} (o : Host.Outcome State Fault Refusal) (read : State → α) : Option α :=
  match o with
  | .next t => some (read t)
  | .fault _ | .refused _ => none

/-- Slot 0 in RUN with this descriptor and these operations, the port granted to it. -/
def running (entry : Record) (ops : List SlotOp) (inHand : List Piece) : State :=
  { act with
    slots := act.slots.set 0
      { Slot.none with state := .run, entry := entry, refs := .a, ops := ops, inHand := inHand, port := .inProgress }
    channels := act.channels.set 0 { act.chan 0 with slot := some 0 }
    port := { act.port with holder := .slot 0 } }

/-- Slot 0 in CHECK with this descriptor. -/
def checking (entry : Record) : State :=
  { act with
    slots := act.slots.set 0 { Slot.none with state := .check, entry := entry, crc := 0xFFFFFFFF#32 }
    channels := act.channels.set 0 { act.chan 0 with slot := some 0 } }

/-- Link tag 3 WAITING for 64 bytes of this holder, which counts on it. -/
def reading (h : TagHolder) : State :=
  let s :=
    { act with
      link :=
        { act.link with
          tags := act.link.tags.set 3 { Tag.none with state := .waiting, holder := h, len := 64, left := 9, timeoutMs := 1 } }
      slots := act.slots.set 0 { Slot.none with state := .run, entry := descriptor 1 64 0, refs := .a, reads := 1 } }
  match h with
  | .none | .slot _ => s
  | .admin => { s with adminFetch := .inFlight 1 }
  | .channel c => s.setFetch c (.inFlight 1)

/-- A drain for this reason in this phase. -/
def draining (reason : DrainReason) (phase : DrainPhase) (s : State) : State :=
  { s with
    ctl :=
      { s.ctl with
        op := .draining, phase := phase, deadline := some 5, working := { s.ctl.working with reason := reason } } }

/-- STANDBY after memory initialisation. -/
def standby : State :=
  { State.reset with
    memState := .ready, port := { State.reset.port with holder := .none }
    ctl := { State.reset.ctl with op := .standby }, link := { State.reset.link with up := true }
    adminRing := { submissionBase := 64, completionBase := 128, size := 8 } }

/-! ### Well-formedness refuses ill-formed commands -/

theorem test_read_burst_of_33_words_is_ill_formed :
    (Instr.readBurst (List.replicate 33 Finding.asWritten)).wellFormed = false := by decide

theorem test_scrub_line_of_7_words_is_ill_formed :
    (Instr.scrubLine (List.replicate 7 Finding.asWritten)).wellFormed = false := by decide

theorem test_empty_answer_is_ill_formed : (Instr.hostReadData 0 []).wellFormed = false := by decide

theorem test_heartbeat_is_no_ignored_write : (Instr.registerWriteIgnored 0x18 4 0).wellFormed = false := by decide

theorem test_ident_write_is_ignored : (Instr.registerWriteIgnored 0x00 4 0).wellFormed = true := by decide

/-! ### Values the spec gives -/

/-- The check value of the CRC of R63: the nine characters 1 to 9 give CBF43926. -/
theorem test_crc_check_value :
    ([0x31, 0x32, 0x33, 0x34, 0x35, 0x36, 0x37, 0x38, 0x39] : List Byte).foldl crcByte 0xFFFFFFFF#32 ^^^ 0xFFFFFFFF#32 =
      0xCBF43926#32 := by decide +kernel

/-! ### One command on a small state -/

/-- R12: with every check passed the entry is OPEN with the next generation. -/
theorem test_define_partition :
    after (exec .definePartition (taking [(0, 1), (8, 3), (9, 1), (10, 0xFFFF), (12, 2), (16, 5)])) (fun t =>
        (t.part 3).state == .opened && (t.part 3).base == 2 && (t.part 3).length == 5 && (t.part 3).cls == .keep &&
          (t.part 3).generation == 1) = some true := by decide +kernel

/-- R12, test 4: a range that meets one of partition 0's units is refused. -/
theorem test_define_partition_overlap :
    after (exec .definePartition (taking [(0, 1), (8, 3), (12, 1), (16, 5)])) (fun t =>
        t.admin.handover.map Completion.status) = some (some .overlap) := by decide +kernel

/-- R12, test 3: the last unit of 1 GiB is 262143. -/
theorem test_define_partition_last_unit :
    after (exec .definePartition (taking [(0, 1), (8, 3), (12, 262143), (16, 2)])) (fun t =>
        t.admin.handover.map Completion.status) = some (some .noSpace) := by decide +kernel

/-- R14: a torn entry is not frozen. -/
theorem test_freeze_torn :
    after (exec .freezePartition
        { taking [(0, 2)] with partitions := act.partitions.set 0 { act.part 0 with torn := true } }) (fun t =>
        (t.admin.handover.map Completion.status, (t.part 0).state)) = some (some .torn, .opened) := by decide +kernel

/-- R15, R16: a release with a reference held waits. -/
theorem test_release_waits :
    after (exec .releasePartition
        { taking [(0, 3)] with partitions := act.partitions.set 0 { act.part 0 with refs := 1 } }) (fun t =>
        ((t.part 0).state, t.admin.handover.isNone, t.admin.processor)) = some (.releasing, true, .executing) := by
  decide +kernel

/-- R40: the completion ring is checked after the context. -/
theorem test_create_channel_absent_ring :
    after (exec .createChannel (taking [(0, 6), (8, 2), (10, 1), (12, 5), (14, 8)])) (fun t =>
        t.admin.handover.map Completion.status) = some (some .notFound) := by decide +kernel

/-- R116: at a debt of 5, a limit of 3 is made pending, and the result is 1. -/
theorem test_set_refresh_pending :
    after (exec .setRefresh { taking [(0, 12), (8, 10), (10, 3)] with refresh := { act.refresh with debt := 5 } }) (fun t =>
        (t.refresh.pendingLimit, t.refresh.limit, t.admin.handover.map Completion.result)) =
      some (some 3, 4, some 1#32) := by decide +kernel

/-- R114: at the limit in force plus one the debt stays and an overrun is counted. -/
theorem test_interval_overrun :
    after (exec .intervalExpiry { act with refresh := { act.refresh with debt := 5, timer := some 0 } }) (fun t =>
        (t.refresh.debt, t.health.overrun, t.events.has .refreshOverrun, t.refresh.timer)) =
      some (5, 1, true, some 78) := by decide +kernel

/-- R143: a correct token ends an alert, whatever its time. -/
theorem test_beat_ends_alert :
    after (exec (.heartbeatWrite 0x101)
        { act with monitor := { act.monitor with state := .alert, periodCode := some 0, graceLeft := some 1 } }) (fun t =>
        (t.monitor.state, t.monitor.beat, t.monitor.last)) = some (.armed, 1#8, .accepted) := by decide +kernel

/-- R142: a beat at the early limit exactly is accepted: window 1 of period 0 is 125 µs. -/
theorem test_beat_at_early_limit :
    after (exec (.heartbeatWrite 1)
        { act with
          monitor := { act.monitor with state := .armed, periodCode := some 0, window := 1, elapsed := some 1250 } })
        (fun t => (t.monitor.state, t.monitor.last)) = some (.armed, .accepted) := by decide +kernel

/-- R84, R86: a head that releases more than the ring holds faults it and halts its channel. -/
theorem test_over_release_faults :
    after (exec (.notifyCqHead 1 3) act) (fun t =>
        ((t.ring 1).state, (t.chan 0).state, t.events.has .cqFault)) = some (.faulted, .halted, true) := by
  decide +kernel

/-- R27: an index equal to the ring's size is refused. -/
theorem test_tail_out_of_range :
    after (exec (.notifySqTail 1 8) act) (fun t => ((t.chan 0).tail, t.events.has .badNotify)) = some (0, true) := by
  decide +kernel

/-- R55: eleven bytes from address 5 are a head of 3 and a body of 8. -/
theorem test_head_and_body : (writeOps 0 5 11).map (fun o => (o.kind, o.addr, o.len)) = [(.rmw, 5, 3), (.write, 8, 8)] :=
  by decide

/-- R54: a piece ends at the next 256-byte boundary of the destination. -/
theorem test_first_piece : pieceLength act { Slot.none with entry := descriptor 1 1000 250 } 0 = 6 := by decide +kernel

/-- R106: a read-modify-write of byte 5 keeps the other bytes of the word. -/
theorem test_read_modify_write :
    after (exec (.readModifyWrite Finding.asWritten)
        { running (descriptor 4 1 5) [⟨.rmw, 0, 5, 1⟩] [⟨0, [9]⟩] with mem := [(4, 1#8), (5, 2#8), (6, 3#8)] }) (fun t =>
        (t.mem, (t.slot 0).state, (t.chan 0).held.map Completion.status)) =
      some ([(4, 1#8), (5, 9#8), (6, 3#8)], .idle, [.ok]) := by decide +kernel

/-- R66, R104: bytes done count the bytes before the lowest uncorrectable word. -/
theorem test_read_burst_media_error :
    after (exec (.readBurst [Finding.asWritten, ⟨.uncorrectable, none⟩]) (running (descriptor 2 16 0) [⟨.read, 0, 0, 16⟩] []))
        (fun t => ((t.chan 0).held.map fun f => (f.status, f.bytesDone), t.health.lines, t.link.outbound.length)) =
      some ([(.mediaError, 8)], [0], 1) := by decide +kernel

/-- R121: the scrub pointer wraps at the capacity. -/
theorem test_scrub_wraps :
    after (exec (.scrubLine (List.replicate 8 Finding.asWritten))
        { act with scrub := { act.scrub with pointer := 2 ^ 30 - 64 }, port := { act.port with holder := .scrubUnit } })
        (fun t => t.scrub.pointer) = some 0 := by decide +kernel

/-- R171: a tag that times out is QUARANTINED for its own timeout. -/
theorem test_read_timeout_quarantines :
    after (exec (.linkReadTimeout 2)
        { act with
          link :=
            { act.link with
              tags := act.link.tags.set 2 { Tag.none with state := .waiting, left := 7, timeoutMs := 3, len := 64 } } })
        (fun t => ((t.tag 2).state, (t.tag 2).left, t.time.tenths)) = some (.quarantined, 30000, 7) := by decide +kernel

/-- R96, R167: an event while messages are enabled hands vector 0 to the link, and the idle step carries it. -/
theorem test_message_delivered :
    after (step { act with link := { act.link with outbound := [.message 3], messageEnable := true, vectors := .two } })
        (fun t => t.link.delivered) = some [.message 1] := by decide +kernel

/-- R25, R128: a function reset carried out in STANDBY resets the scheduler's pointers and credits with ADMIN_RING. -/
theorem test_function_reset_in_standby :
    after
        (exec .functionReset
          { standby with sched := { urgent := { pointer := 3, credit := 2 }, bulk := { pointer := 4, credit := 1 } } })
        (fun t => (t.sched.urgent, t.sched.bulk, t.adminRing.size)) =
      some ({ pointer := 15, credit := 0 }, { pointer := 15, credit := 0 }, 0#16) := by decide +kernel

/-- The register window: CONTROL code 3 spells FUNCTION_RESET (R176). -/
theorem test_control_code_3 : decodeRegisterWrite 0x10 4 3 = .functionReset := by decide

/-- NOTIFY of index 0x1234 for completion ring 8 (R176). -/
theorem test_notify_word : decodeRegisterWrite 0x14 4 0x01081234 = .notifyCqHead 8 0x1234 := by decide +kernel

/-! ### Witnesses: for every statement with hypotheses, states that meet them, clause by clause -/

theorem answers {o : Host.Outcome State Fault Refusal} (h : after o (fun _ => ()) = some ()) : ∃ t, o = .next t := by
  cases o with
  | next t => exact ⟨t, rfl⟩
  | fault r => cases h
  | refused r => cases h

theorem witness_StepRunsFrontCommand :
    { act with pending := [.refresh, .enable] }.pending = .refresh :: [.enable] ∧
      (act.pending = [] ∧ act.power.core = true) ∧
      ({ act with power := { act.power with core := false } }.pending = [] ∧
        { act with power := { act.power with core := false } }.power.core = false) := by decide +kernel

/-- A write burst of the last eight bytes of 1 GiB is inside, and one a byte further on is past the capacity. -/
theorem witness_EveryCommandAnswers :
    (running (descriptor 4 8 0) [⟨.write, 0, 2 ^ 30 - 7, 8⟩] [⟨0, [1]⟩]).pastCapacity .writeBurst ∧
      ¬(running (descriptor 4 8 0) [⟨.write, 0, 2 ^ 30 - 8, 8⟩] [⟨0, [1]⟩]).pastCapacity .writeBurst := by
  refine ⟨⟨by decide +kernel, 0, ⟨.write, 0, 2 ^ 30 - 7, 8⟩, by decide +kernel, by decide +kernel⟩, ?_⟩
  rintro ⟨_, k, o, h, hw⟩
  have hs : slotAtPort (running (descriptor 4 8 0) [⟨.write, 0, 2 ^ 30 - 8, 8⟩] [⟨0, [1]⟩]) .write =
      some (0, ⟨.write, 0, 2 ^ 30 - 8, 8⟩) := by decide +kernel
  rw [hs] at h
  cases h
  exact absurd hw (by decide +kernel)

/-- A busy controller: a slot with a reference, a listed line, a listed byte, the monitor ARMED, a beat waiting. -/
def busy : State :=
  { running (descriptor 4 16 0) [⟨.write, 0, 0, 16⟩] [⟨0, List.replicate 16 5⟩] with
    partitions := act.partitions.set 0 { act.part 0 with refs := 1, writeRefs := 1 }
    mem := [(3, 7)], health := { act.health with lines := [64], overflow := 255 }
    rings := act.rings.set 1 { act.ring 1 with unconsumed := 8, bound := 1 }
    refresh := { act.refresh with debt := 5, pendingLimit := some 3, timer := some 78 }
    monitor := { act.monitor with state := .armed, periodCode := some 0, elapsed := some 0 }
    pending := [.heartbeatWrite 1] }

theorem busy_steps : ∃ t, step busy = .next t := answers (by decide +kernel)

theorem witness_MemoryLawKept : busy.MemoryLaw ∧ ∃ t, step busy = .next t :=
  ⟨by unfold State.MemoryLaw; decide +kernel, busy_steps⟩

theorem witness_HealthLawKept : busy.HealthLaw ∧ ∃ t, step busy = .next t :=
  ⟨by unfold State.HealthLaw; decide +kernel, busy_steps⟩

theorem witness_RingLawKept : busy.RingLaw ∧ ∃ t, step busy = .next t :=
  ⟨by unfold State.RingLaw; decide +kernel, busy_steps⟩

theorem witness_RefreshLawKept : busy.RefreshLaw ∧ ∃ t, step busy = .next t := by
  refine ⟨⟨by decide +kernel, ?_, by decide +kernel, by decide +kernel⟩, busy_steps⟩
  intro p h
  have : busy.refresh.pendingLimit = some 3 := by decide +kernel
  rw [this] at h
  cases h
  decide +kernel

theorem witness_PartitionLawKept : busy.PartitionLaw ∧ ∃ t, step busy = .next t :=
  ⟨by unfold State.PartitionLaw; decide +kernel, busy_steps⟩

theorem busy_retained_law : busy.RetainedLaw := by unfold State.RetainedLaw State.settling; decide +kernel

theorem witness_RetainedLawKept : busy.RetainedLaw ∧ ∃ t, step busy = .next t := ⟨busy_retained_law, busy_steps⟩

theorem witness_MonitorLawKept : busy.RetainedLaw ∧ busy.MonitorLaw ∧ ∃ t, step busy = .next t :=
  ⟨busy_retained_law, by unfold State.MonitorLaw; decide +kernel, busy_steps⟩

theorem witness_ChannelLawKept : busy.RetainedLaw ∧ busy.ChannelLaw ∧ ∃ t, step busy = .next t := by
  have h : ∀ c, busy.fetchOf c = .empty := by decide +kernel
  refine ⟨busy_retained_law, ⟨fun c => ⟨?_, ?_, fun n hn => ?_, ?_, ?_⟩, ?_⟩, busy_steps⟩
  · revert c; decide +kernel
  · revert c; decide +kernel
  · rw [h c] at hn; cases hn
  · revert c; decide +kernel
  · intro ha
    refine ⟨by revert c; decide +kernel, fun n hn => ?_⟩
    rw [h c] at hn; cases hn
  · unfold State.holdsWork; decide +kernel

theorem witness_ReferenceLawKept : busy.RetainedLaw ∧ busy.ReferenceLaw ∧ ∃ t, step busy = .next t :=
  ⟨busy_retained_law, by unfold State.ReferenceLaw; decide +kernel, busy_steps⟩

/-- The state at which a MARK of value 9 is about to be chosen from a clean channel. -/
def marking : State :=
  { act with channels := act.channels.set 0 { act.chan 0 with queue := [⟨record [(0, 6), (40, 9)], 1⟩] } }

theorem witness_MarkChangesOnlyByMark :
    (∃ t, exec .slotSchedulerChoice marking = .next t) ∧
      after (exec .slotSchedulerChoice marking) (fun t => (t.chan 0).mark) = some 9#32 :=
  ⟨answers (by decide +kernel), by decide +kernel⟩

theorem witness_GenerationAdvancesOnlyByDefine :
    ∃ t, exec .definePartition (taking [(0, 1), (8, 3), (12, 2), (16, 5)]) = .next t := answers (by decide +kernel)

/-- Self-refresh entry is in progress. -/
def entering : State :=
  { State.reset with
    memState := .ready, ctl := { State.reset.ctl with op := .draining, phase := .settle }
    port := { State.reset.port with holder := .selfRefreshEntry } }

theorem witness_RecordReplacedOnlyAtEntry :
    (∃ t, exec .selfRefreshEntry entering = .next t) ∧
      after (exec .selfRefreshEntry entering) (fun t => (t.ctl.op, t.ctl.record.valid, t.ctl.record.sequence)) =
        some (.retained, true, 1#32) := ⟨answers (by decide +kernel), by decide +kernel⟩

theorem witness_MemoryWrittenOnlyByPort :
    busy.MemoryLaw ∧ Instr.writeBurst ≠ .powerOn ∧ (∃ t, exec .writeBurst busy = .next t) ∧
      ¬busy.storesTo 16 .writeBurst := by
  refine ⟨by unfold State.MemoryLaw; decide +kernel, by decide, answers (by decide +kernel), ?_⟩
  rintro ⟨k, o, h, h2, h3⟩
  have hs : slotAtPort busy .write = some (0, ⟨.write, 0, 0, 16⟩) := by decide +kernel
  rw [hs] at h
  cases h
  exact absurd h3 (by decide +kernel)

theorem witness_CountersKeptUntilPowerOn :
    busy.HealthLaw ∧ Instr.writeBurst ≠ .powerOn ∧ ∃ t, exec .writeBurst busy = .next t :=
  ⟨by unfold State.HealthLaw; decide +kernel, by decide, answers (by decide +kernel)⟩

/-- Each clause of the five tests on partition 0, of 8192 bytes with generation 1, at its boundary. -/
theorem witness_ReferenceCheckOrder :
    checkRef act ⟨16, 1, 0⟩ 0 true 1 = some .partitionState ∧ checkRef act ⟨1, 0, 0⟩ 0 true 1 = some .partitionState ∧
      checkRef act ⟨0, 0, 0⟩ 1 true 1 = some .stale ∧ checkRef act ⟨0, 1, 0⟩ 1 true 8193 = some .access ∧
      checkRef (act.setPart 0 { act.part 0 with state := .frozen }) ⟨0, 1, 0⟩ 0 true 8193 = some .protect ∧
      checkRef act ⟨0, 1, 1⟩ 0 true 8192 = some .bounds ∧ checkRef act ⟨0, 1, 8191⟩ 0 true 1 = none := by
  decide +kernel

theorem witness_ReferencesReleasedAtEnd :
    let s := { busy.setPart 0 { busy.part 0 with state := .releasing } with
                admin := { busy.admin with command := some ⟨record [(0, 3), (4, 5)], 2, .references 0⟩ } }
    (s.slot 0).refs ≠ .none ∧ (refA (s.slot 0).entry).partition.toNat = (0 : Fin 16).val ∧
      (s.part 0).state = .releasing ∧ (s.part 0).refs = 1 ∧ (∀ c ∈ s.admin.command, c.wait = .references 0) ∧
      (busy.part 0).state ≠ .releasing ∧ busy.admin.command = none ∧
      (releaseRefs s (s.slot 0) true false).admin.handover.isSome = true := by decide +kernel

theorem witness_EndHappening :
    (busy.slot 0).stop ≠ .silent ∧ ((busy.setSlot 0 { busy.slot 0 with stop := .silent }).slot 0).stop = .silent ∧
      { busy.ctl with op := .draining }.op = .draining ∧ Status.terminated = .terminated := by
  decide +kernel

theorem witness_PiecesAndOperations :
    (999 : Nat) < descLength ({ Slot.none with entry := descriptor 1 1000 250 }).entry ∧ (1 : Nat) ≤ 1 ∧
      (refA (descriptor 1 1000 250)).partition.toNat = (0 : Fin 16).val ∧
      (refB (descriptor 1 1000 250)).partition.toNat = (0 : Fin 16).val := by
  decide +kernel

theorem witness_PortGrantOrder :
    let waiting := fun (cls : ChannelClass) =>
      { act.setSlot 2 { Slot.none with port := .waiting, cls := cls } with refresh := { act.refresh with debt := 4 } }
    let paid := { act with refresh := { act.refresh with debt := 0 } }
    State.reset.memState ≠ .ready ∧ act.memState = .ready ∧ busy.refresh.limit < busy.refresh.debt ∧
      portChoice busy = .refreshEngine ∧ portChoice (waiting .urgent) = .slot 2 ∧ portChoice (waiting .bulk) = .slot 2 ∧
      portChoice { act with refresh := { act.refresh with debt := 1 } } = .refreshEngine ∧
      portChoice { paid with port := { paid.port with entryRequest := true } } = .selfRefreshEntry ∧
      portChoice { paid with scrub := { paid.scrub with request := true } } = .scrubUnit ∧ portChoice paid = .none ∧
      busy.port.holder ≠ .none ∧ paid.port.holder = .none ∧ settlePort paid = paid := by
  decide +kernel

theorem witness_TagGrantOrder :
    let asking := { act with link := { act.link with slotRequests := Vector.replicate 4 true, slotPointer := 1 } }
    let full := { act with link := { act.link with tags := Vector.replicate 16 { Tag.none with state := .waiting } } }
    grantHolder asking = some (.slot 2) ∧ asking.link.slotRequests.get 2 = true ∧
      grantHolder { act with adminFetch := .requesting } = some .admin ∧
      grantHolder (act.setFetch 15 .requesting) = some (.channel 15) ∧ grantHolder act = none ∧
      act.link.up = true ∧ (act.tag 0).state = .free ∧ (∀ g, (full.tag g).state ≠ .free) ∧
      State.reset.link.up = false ∧ settleLink busy = busy := by decide +kernel

theorem witness_TagGrantOrder_kept :
    busy.RetainedLaw ∧ settleLink busy = busy ∧ settlePort busy = busy ∧ ∃ t, step busy = .next t :=
  ⟨busy_retained_law, by decide +kernel, by decide +kernel, busy_steps⟩

theorem witness_EventsRaisedAndCleared :
    act.events.has .cqFault = false ∧ (act.raise .cqFault).events.has .cqFault = true ∧ act.power.core = true ∧
      act.link.up = true := by decide +kernel

theorem witness_RegisterWindow :
    (1 : BitVec 64).extractLsb' 0 2 = 1#2 ∧ (2 : BitVec 64).extractLsb' 0 2 = 2#2 ∧ (7 : BitVec 64).extractLsb' 0 2 = 3#2 ∧
      (4 : BitVec 64).extractLsb' 0 2 = 0#2 ∧ (0 : BitVec 64).getLsbD 24 = false ∧
      (0x1000000 : BitVec 64).getLsbD 24 = true ∧ readWindow act 0x1C 8 = 0 ∧ readWindow act 2 4 = 0 := by decide +kernel

/-- Core logic without power; with `retained`, a valid record in self-refresh. -/
def unpowered (retained : Bool) : State :=
  { State.reset with
    power := { State.reset.power with core := false, pwrWarn := true, source := .backup }
    memState := .selfRefresh
    ctl := { State.reset.ctl with op := .retained, record := { State.reset.ctl.record with valid := retained } } }

theorem witness_PowerAndSupplies :
    ((unpowered false).power.core = false ∧ (unpowered false).ctl.record.valid = false) ∧
      ((unpowered true).power.core = false ∧ (unpowered true).power.alwaysOn = true ∧
        (unpowered true).ctl.record.valid = true ∧ (unpowered true).memState = .selfRefresh) ∧
      (let s := { unpowered true with power := { (unpowered true).power with core := true } }
       s.power.core = true ∧ s.ctl.op = .retained ∧ s.memState = .selfRefresh ∧ s.power.pwrWarn = true ∧
         s.power.source = .backup) := by decide +kernel

theorem witness_MemoryInitialisation :
    let s := State.reset
    (s.power.core = true ∧ s.ctl.op = .init ∧ s.memState = .init ∧ s.power.pwrWarn = false ∧ s.EntryLaw) ∧
      { s.power with pwrWarn := true }.pwrWarn = true ∧ (∀ c, s.chan c = Channel.none) ∧ ∀ r, s.ring r = Ring.none := by
  unfold State.EntryLaw; decide +kernel

theorem witness_DrainStarts :
    let executing := fun w => { act.admin with processor := .executing, command := some ⟨record [(0, 7), (4, 5)], 1, w⟩ }
    (act.power.core = true ∧ act.ctl.op = .active ∧ act.power.pwrWarn = false ∧ act.link.up = true) ∧
      ({ act with monitor := { act.monitor with state := .alert, graceLeft := some 0 } }.monitor.state = .alert) ∧
      Takes (taking [(0, 19)]) (taken [(0, 19)]) [] 19 ∧ (taking [(0, 19)]).admin.handover = none ∧
      act.admin.command = none ∧ (executing (.channelEmpty 0)).handover = none ∧
      (∀ p ∈ (executing .none).command, ∀ i, p.wait ≠ .references i) ∧
      ({ executing .none with handover := some (adminCompletion ⟨0, 1, .none⟩ .ok 0) }).handover.isSome = true := by
  unfold Takes; decide +kernel

/-- A slot at work holds the drain in STOP, so that a drain that begins has not settled. -/
theorem witness_DrainStarts_not_settled :
    after (exec .pwrWarnAsserted busy) (fun t => t.ctl.phase) = some .stop := by decide +kernel

theorem witness_StandbySettles :
    (standby.power.pwrWarn = false ∧ standby.power.core = true ∧ standby.ctl.op = .standby ∧
        (∀ c, standby.chan c = Channel.none) ∧ ∀ r, standby.ring r = Ring.none) ∧
      (State.reset.power.pwrWarn = false ∧ State.reset.ctl.op ≠ .standby ∧ State.reset.ctl.op ≠ .active ∧
        State.reset.ctl.op ≠ .quiescing) := by decide +kernel

theorem witness_LinkChanges :
    let waits := fun h o => ((reading h).tag 3).state = .waiting ∧ ((reading h).tag 3).holder = h ∧
      ((reading h).tag 3).orphan = o ∧ (reading h).ctl.op = .active ∧ (reading h).link.up = true
    act.power.core = true ∧ act.link.up = true ∧ act.events.has .badNotify = false ∧
      (act.raise .badNotify).events.has .badNotify = true ∧ State.reset.power.core = true ∧
      State.reset.link.up = false ∧ (State.reset.ctl.op ≠ .active ∧ State.reset.ctl.op ≠ .draining) ∧
      (waits (.slot 0) false ∧ ((reading (.slot 0)).slot 0).state = .run ∧ ((reading (.slot 0)).slot 0).stop ≠ .silent) ∧
      (waits .admin false ∧ (reading .admin).adminFetch = .inFlight 1) ∧
      (waits (.channel 0) false ∧ (reading (.channel 0)).fetchOf 0 = .inFlight 1 ∧
        ((reading (.channel 0)).chan 0).state = .running) ∧
      (draining .hostRequest .flush act).ctl.phase = .flush := by decide +kernel

/-- The channel law, which rules out a grant after a link reset, holds of a busy controller. -/
theorem witness_LinkChanges_law : busy.ChannelLaw ∧ busy.power.core = true :=
  ⟨witness_ChannelLawKept.2.1, by decide +kernel⟩

theorem witness_RegisterWrites :
    (standby.power.core = true ∧ standby.link.up = true ∧ standby.ctl.op = .standby) ∧
      (let s := { standby with ctl := { standby.ctl with op := .retained }, memState := .selfRefresh }
       s.power.core = true ∧ s.link.up = true ∧ s.ctl.op = .retained ∧ s.memState ≠ .exiting) ∧
      (act.ctl.op ≠ .standby ∧ act.ctl.op ≠ .retained) := by decide +kernel

theorem witness_EnableTaken :
    let down := { standby with link := { standby.link with up := false } }
    let retained := { standby with ctl := { standby.ctl with op := .retained }, memState := .selfRefresh }
    (standby.power.core = true ∧ standby.ctl.op = .standby ∧ standby.EntryLaw ∧ standby.link.up = true ∧
        (∃ n : Fin 6, standby.adminRing.size.toNat = 2 ^ (n.val + 3)) ∧
        standby.adminRing.submissionBase.toNat % 64 = 0 ∧ standby.adminRing.completionBase.toNat % 64 = 0) ∧
      (down.ctl.op = .standby ∧ down.EntryLaw ∧ down.link.up = false) ∧
      ¬(∃ n : Fin 6, ({ standby with adminRing := { standby.adminRing with size := 512 } }.adminRing.size).toNat =
        2 ^ (n.val + 3)) ∧
      (retained.ctl.op = .retained ∧ retained.memState = .selfRefresh ∧ retained.power.pwrWarn = false) ∧
      { retained with memState := .exiting }.memState = .exiting ∧ act.ctl.op ≠ .standby ∧ act.ctl.op ≠ .retained := by
  unfold State.EntryLaw; decide +kernel

theorem witness_QuiesceTaken :
    (act.power.core = true ∧ act.link.up = true ∧ act.ctl.op = .active ∧ act.EntryLaw) ∧ standby.ctl.op ≠ .active := by
  unfold State.EntryLaw; decide +kernel

theorem witness_FunctionResetTaken :
    (act.power.core = true ∧ act.link.up = true ∧ act.ctl.op = .active ∧ act.EntryLaw) ∧ standby.ctl.op = .standby ∧
      State.reset.ctl.op ≠ .active ∧ State.reset.ctl.op ≠ .quiescing ∧ State.reset.ctl.op ≠ .standby ∧
      ((checking (descriptor 4 8 0)).slot 0).state = .check ∧ (∀ k, busy.refsOf 1 k = 0) ∧
      busy.port.holder ≠ .none ∧ busy.ctl.op = .active ∧ busy.EntryLaw := by
  unfold State.EntryLaw; decide +kernel

theorem witness_FunctionResetTaken_law : busy.ReferenceLaw := witness_ReferenceLawKept.2.1

/-- Ring 0 at its last index and one beyond, ring 1 likewise, and the first ring id that names no ring. -/
theorem witness_SubmissionTails :
    act.power.core = true ∧ act.link.up = true ∧ act.ctl.op = .active ∧ (7#16).toNat < act.admin.size ∧
      ¬(8#16).toNat < act.admin.size ∧ (1#8).toNat = (0 : Fin 16).val + 1 ∧ (act.chan 0).state = .running ∧
      (7#16).toNat < (act.chan 0).size ∧ ¬(8#16).toNat < (act.chan 0).size ∧ (act.chan 0).queue.length < 8 ∧
      act.fetchOf 0 = .empty ∧ ((7#16).toNat + (act.chan 0).size - (act.chan 0).head) % (act.chan 0).size ≠ 0 ∧
      16 < (17#8).toNat := by decide +kernel

theorem witness_CompletionHeads :
    act.power.core = true ∧ act.link.up = true ∧ act.EntryLaw ∧ 9 ≤ (9#8).toNat ∧ (1#8).toNat = (1 : Fin 9).val ∧
      (act.ring 1).state = .active ∧ (7#16).toNat < (act.ring 1).size ∧ (act.ring 1).size ≤ (8#16).toNat ∧
      (act.ring 2).state ≠ .active ∧
      (let x := act.ring 1
       (x.unconsumed = 0 ∧ (0 + x.size - (x.write + x.size - x.unconsumed) % x.size) % x.size ≤ x.unconsumed) ∧
         x.unconsumed < (1 + x.size - (x.write + x.size - x.unconsumed) % x.size) % x.size) := by
  unfold State.EntryLaw; decide +kernel

/-- A monitor with period 0 (1 ms), window 7 (early limit 875 µs). -/
def watching (st : MonitorState) (elapsed : Option Nat) : State :=
  { act with monitor := { act.monitor with state := st, periodCode := some 0, window := 7, elapsed := elapsed } }

theorem witness_MonitorBeats :
    act.power.core = true ∧ act.link.up = true ∧ act.monitor.state = .disarmed ∧
      (let s := watching .armed (some 8749)
       s.monitor.state = .armed ∧ s.monitor.periodCode = some 0 ∧ (1#32).setWidth 8 = s.monitor.beat + 1 ∧
         ¬(2#32).setWidth 8 = s.monitor.beat + 1 ∧ s.monitor.elapsed = some 8749 ∧ 8749 < 125 * 2 ^ 0 * 7 * 10) ∧
      (let s := watching .armed (some 8750)
       s.monitor.elapsed = some 8750 ∧ 125 * 2 ^ 0 * 7 * 10 ≤ 8750) ∧
      (watching .alert none).monitor.state = .alert := by decide +kernel

/-- Each check of DEFINE_PARTITION in turn, on the fields at their boundaries. -/
theorem witness_DefinePartition :
    let fields := fun code base len id => [(0, 1), (8, id), (9, code), (12, base), (16, len)]
    Takes (taking (fields 2 0 1 3)) (taken (fields 2 0 1 3)) [] 1 ∧
      Takes (taking (fields 0 0 1 0)) (taken (fields 0 0 1 0)) [] 1 ∧
      Takes (taking (fields 1 262142 2 3)) (taken (fields 1 262142 2 3)) [] 1 ∧
      (taking (fields 2 0 1 3)).ctl.retainedPending = false ∧
      (byteAt (taken (fields 2 0 1 3)).entry 8).toNat = (3 : Fin 16).val ∧
      (byteAt (taken (fields 2 0 1 3)).entry 9).toNat = 2 ∧ (act.part 0).state ≠ .free ∧ (act.part 3).state = .free ∧
      262143 + 2 > act.capacity.units ∧ 262142 + 2 ≤ act.capacity.units ∧
      ((1 : Nat) < (act.part 0).base + (act.part 0).length ∧ (act.part 0).base < 1 + 1) ∧
      ∀ j, ¬((act.part j).state ≠ .free ∧ 2 < (act.part j).base + (act.part j).length ∧ (act.part j).base < 2 + 1) := by
  unfold Takes; decide +kernel

theorem witness_PartitionEntryCommands :
    let f := fun code => [(0, code), (8, 0)]
    let p := act.part 0
    Takes (taking (f 2)) (taken (f 2)) [] 2 ∧ Takes (taking (f 3)) (taken (f 3)) [] 3 ∧
      Takes (taking (f 4)) (taken (f 4)) [] 4 ∧ (taking (f 2)).ctl.retainedPending = false ∧
      (byteAt (taken (f 2)).entry 8).toNat = (0 : Fin 16).val ∧ (act.part 1).state = .free ∧ p.state = .opened ∧
      p.writeRefs = 0 ∧ p.torn = false ∧ p.refs = 0 ∧ (busy.part 0).writeRefs ≠ 0 ∧ (busy.part 0).refs ≠ 0 ∧
      { p with torn := true }.torn = true := by unfold Takes; decide +kernel

theorem witness_CommandRefusals :
    let pending := { taking [(0, 6)] with ctl := { act.ctl with retainedPending := true } }
    (∀ p ∈ [(0, 0), (23, 0), (1, 16), (2, 16), (3, 16), (4, 16), (8, 0), (9, 17), (7, 17), (7, 2)],
        Takes (taking [(0, p.1), (8, p.2)]) (taken [(0, p.1), (8, p.2)]) [] p.1) ∧
      (byteAt (taken [(0, 7), (8, 2)]).entry 8).toNat = (1 : Fin 16).val + 1 ∧ (act.chan 1).state = .absent ∧
      act.EntryLaw ∧ Takes pending (taken [(0, 6)]) [] 6 ∧ pending.ctl.retainedPending = true := by
  unfold Takes State.EntryLaw; decide +kernel

theorem witness_ReportsWritten :
    let t := fun code a => Takes (taking [(0, code), (8, a)]) (taken [(0, code), (8, a)]) [] code
    let s := { taking [(0, 20)] with ctl := { act.ctl with record := { act.ctl.record with valid := true } } }
    t 5 64 ∧ t 14 64 ∧ t 20 64 ∧ t 5 63 ∧ (longAt (taken [(0, 5), (8, 64)]).entry 8).toNat % 64 = 0 ∧
      (longAt (taken [(0, 5), (8, 63)]).entry 8).toNat % 64 ≠ 0 ∧ act.ctl.record.valid = false ∧
      Takes s (taken [(0, 20)]) [] 20 ∧ s.ctl.record.valid = true := by unfold Takes; decide +kernel

/-- CREATE_CHANNEL of channel 2 with size 4096 and weight 16 passes every check, and each check fails somewhere. -/
theorem witness_CreateChannel :
    let g := [(0, 6), (8, 2), (10, 16), (12, 1), (14, 4096), (16, 64)]
    let r := (taken g).entry
    Takes (taking g) (taken g) [] 6 ∧ act.ctl.retainedPending = false ∧ (byteAt r 8).toNat = (1 : Fin 16).val + 1 ∧
      (act.chan 1).state = .absent ∧ (act.chan 0).state ≠ .absent ∧ (byteAt r 12).toNat = (1 : Fin 9).val ∧
      (1 : Fin 9) ≠ 0 ∧ (act.ring 1).state = .active ∧ (act.ring 2).state ≠ .active ∧
      ((longAt r 16).toNat % 64 = 0 ∧ (∃ n : Fin 10, (halfAt r 14).toNat = 2 ^ (n.val + 3)) ∧ (byteAt r 9).toNat ≤ 1 ∧
        1 ≤ (byteAt r 10).toNat ∧ (byteAt r 10).toNat ≤ 16 ∧ (byteAt r 11).toNat ≤ 1) ∧
      ¬(∃ n : Fin 10, 8192 = 2 ^ (n.val + 3)) ∧ (byteAt (record [(8, 17)]) 8).toNat = 17 ∧
      (byteAt (record [(12, 9)]) 12).toNat = 9 := by unfold Takes; decide +kernel

theorem witness_ChannelCommands :
    let t := fun code => Takes (taking [(0, code), (8, 1)]) (taken [(0, code), (8, 1)]) [] code
    t 8 ∧ t 9 ∧ t 7 ∧ (byteAt (taken [(0, 8), (8, 1)]).entry 8).toNat = (0 : Fin 16).val + 1 ∧
      (act.chan 0).state ≠ .absent ∧ (act.chan 0).state = .running ∧ act.EntryLaw ∧
      (act.ring (act.chan 0).ring).state ≠ .faulted ∧
      { act.chan 0 with state := .paused }.state = .paused ∧ (act.chan 0).slot = none ∧
      (busy.chan 0).slot = some 0 := by unfold Takes State.EntryLaw; decide +kernel

/-- CREATE_CQ of ring 2 with every value at its maximum, and DELETE_CQ of rings in each state. -/
theorem witness_CompletionRingCommands :
    let g := [(0, 10), (8, 2), (9, 15), (10, 64), (12, 1000), (14, 4096), (16, 64)]
    let r := (taken g).entry
    Takes (taking g) (taken g) [] 10 ∧ (2 : Fin 9) ≠ 0 ∧ (byteAt r 8).toNat = (2 : Fin 9).val ∧
      (act.ring 2).state = .absent ∧ (act.ring 1).state ≠ .absent ∧
      ((longAt r 16).toNat % 64 = 0 ∧ (∃ n : Fin 10, (halfAt r 14).toNat = 2 ^ (n.val + 3)) ∧ 1 ≤ (byteAt r 9).toNat ∧
        (byteAt r 9).toNat ≤ 15 ∧ 1 ≤ (byteAt r 10).toNat ∧ (byteAt r 10).toNat ≤ 64 ∧ (halfAt r 12).toNat ≤ 1000) ∧
      (byteAt (record [(9, 16)]) 9).toNat = 16 ∧
      Takes (taking [(0, 11), (8, 1)]) (taken [(0, 11), (8, 1)]) [] 11 ∧
      Takes (taking [(0, 11), (8, 9)]) (taken [(0, 11), (8, 9)]) [] 11 ∧ (act.ring 1).bound ≠ 0 ∧
      (act.setRing 1 { act.ring 1 with bound := 0 }).ring 1 ≠ act.ring 1 ∧
      ((act.setRing 1 { act.ring 1 with bound := 0 }).ring 1).bound = 0 := by unfold Takes; decide +kernel

/-- Each setting command at the edges of its ranges. -/
theorem witness_SettingsTaken :
    (∀ g ∈
        [[(0, 12), (8, 9), (10, 0)], [(0, 12), (8, 156), (10, 7)], [(0, 13), (8, 65536)], [(0, 13), (8, 0)],
          [(0, 13), (8, 65535)], [(0, 17), (8, 0)], [(0, 17), (8, 256)], [(0, 17), (8, 255)], [(0, 18), (8, 256)],
          [(0, 18), (8, 1)], [(0, 15)], [(0, 16), (8, 16)], [(0, 16), (8, 15), (9, 7), (10, 1000)],
          [(0, 16), (8, 15), (9, 8), (10, 1000)], [(0, 16), (8, 255)]],
        Takes (taking g) (taken g) [] (g.headD (0, 0)).2) ∧
      act.refresh.debt ≤ 7 + 1 ∧ 3 + 1 < busy.refresh.debt ∧ act.scrub.period = 0 ∧ act.memState = .ready ∧
      { act.scrub with period := 1 }.period ≠ 0 ∧ act.monitor.state = .disarmed ∧ busy.monitor.state = .armed ∧
      (watching .alert none).monitor.state = .alert := by unfold Takes; decide +kernel

theorem witness_RecoveryCommands :
    let pending := fun code =>
      { taking [(0, code)] with ctl := { act.ctl with retainedPending := true } }
    Takes (taking [(0, 21)]) (taken [(0, 21)]) [] 21 ∧ Takes (taking [(0, 22)]) (taken [(0, 22)]) [] 22 ∧
      (taking [(0, 21)]).ctl.retainedPending = false ∧ Takes (pending 21) (taken [(0, 21)]) [] 21 ∧
      Takes (pending 22) (taken [(0, 22)]) [] 22 ∧ (pending 21).ctl.retainedPending = true := by
  unfold Takes; decide +kernel

/-- Channel 1 with one fetched descriptor. -/
def queued (entry : Record) (turn : Turn) : State :=
  { act with
    channels := act.channels.set 0 { act.chan 0 with queue := [⟨entry, 1⟩] }
    sched := { act.sched with bulk := turn } }

theorem witness_SlotSchedulerChoice :
    let s := queued (descriptor 2 16777216 0) { pointer := 15, credit := 0 }
    let kept := queued (descriptor 2 16777217 0) { pointer := 0, credit := 1 }
    s.power.core = true ∧ s.EntryLaw ∧ s.ctl.op = .active ∧ (s.chan 0).state = .running ∧
      (s.chan 0).queue = [⟨descriptor 2 16777216 0, 1⟩] ∧ (s.chan 0).slot = none ∧ (s.chan 0).held.length < 4 ∧
      (s.chan 0).cls = .bulk ∧ (s.slot 0).state = .idle ∧ (∀ d, d ≠ 0 → (s.chan d).queue = []) ∧
      s.sched.bulk.credit = 0 ∧ kept.sched.bulk = { pointer := 0, credit := 1 } ∧
      descKind (descriptor 2 16777216 0) = some .readOut ∧ descLength (descriptor 2 16777216 0) ≤ 16777216 ∧
      ¬descLength (descriptor 2 16777217 0) ≤ 16777216 ∧ descKind (descriptor 0 1 0) = none ∧
      descKind (descriptor 6 1 0) = some .mark := by unfold State.EntryLaw; decide +kernel

/-- A COPY of `length` bytes inside partition 0, from source offset `src` to destination offset 0. -/
def copying (length src generation : Nat) : Record :=
  record [(0, 3), (8, length), (16, 0), (21, 1), (24, src), (29, generation)]

theorem witness_PresentationAnswered :
    let holds := fun r => ((checking r).power.core = true ∧ (checking r).EntryLaw ∧ ((checking r).slot 0).state = .check)
    let a := fun r => checkRef (checking r) (refA r) 0 true (descLength r)
    let b := fun r => checkRef (checking r) (refB r) 0 false (descLength r)
    (holds (descriptor 4 8193 0) ∧ a (descriptor 4 8193 0) = some .bounds) ∧
      (holds (copying 64 64 2) ∧ a (copying 64 64 2) = none ∧ b (copying 64 64 2) = some .stale) ∧
      (holds (copying 64 63 1) ∧ a (copying 64 63 1) = none ∧ b (copying 64 63 1) = none) ∧
      (holds (copying 64 64 1) ∧ a (copying 64 64 1) = none ∧ b (copying 64 64 1) = none ∧
        rangeB (checking (copying 64 64 1)) ((checking (copying 64 64 1)).slot 0) = 64 ∧
        1 ≤ descLength (copying 64 64 1) ∧ descKind (copying 64 64 1) = some .copy) ∧
      a (descriptor 4 8192 0) = none ∧ descKind (descriptor 4 8192 0) = some .fill := by
  unfold State.EntryLaw; decide +kernel

theorem witness_SlotsStopAndMoveOn :
    StopRequest.terminated ≠ .none ∧ (act.slot 0).state = .idle ∧ ((checking (descriptor 4 8 0)).slot 0).state = .check ∧
      (busy.slot 0).state = .run ∧ (busy.slot 0).bytesDone < descLength (busy.slot 0).entry ∧
      descLength (descriptor 4 0 0) ≤ 0 := by decide +kernel

/-- Slot 0 in RUN, or in ENDING, with no request of the port. -/
def unasked (st : SlotState) (entry : Record) (ops : List SlotOp) (inHand : List Piece) : Slot :=
  { (running entry ops inHand).slot 0 with state := st, port := .none }

theorem witness_SlotsStopAndMoveOn_clauses :
    let p : Piece := ⟨0, [1, 2]⟩
    let op := fun k pos => (⟨k, pos, 0, 8⟩ : SlotOp)
    (∀ kind ∈ [(1, Kind.writeIn), (2, .readOut), (3, .copy), (4, .fill), (5, .checksum)],
        descKind (descriptor kind.1 16 0) = some kind.2 ∧ 0 < descLength (descriptor kind.1 16 0) ∧
          (unasked .run (descriptor kind.1 16 0) [] []).state = .run ∧
          (unasked .run (descriptor kind.1 16 0) [] []).ops = [] ∧
          (unasked .run (descriptor kind.1 16 0) [] []).nextPiece = (unasked .run 0 [] []).bytesDone) ∧
      (∃ o ∈ (unasked .run (descriptor 4 16 0) [op .write 8] []).ops.head?, o.pos ≠ 0) ∧
      (∃ o ∈ (unasked .run (descriptor 2 16 0) [op .read 0] []).ops.head?, o.kind = .read) ∧
      ((unasked .run (descriptor 1 16 0) [] [p]).inHand.head? = some p ∧ p.pos = 0 ∧ (⟨8, [1]⟩ : Piece).pos ≠ 0) ∧
      ((unasked .ending (descriptor 1 16 0) [] [p]).state = .ending ∧
        (unasked .ending (descriptor 1 16 0) [] [p]).port ≠ .inProgress ∧
        (unasked .ending (descriptor 1 16 0) [] [p]).ops = []) ∧
      ((unasked .ending (descriptor 1 16 0) [] []).inHand = [] ∧
        { unasked .ending (descriptor 1 16 0) [op .write 0] [p] with port := .inProgress }.port = .inProgress ∧
        (unasked .ending (descriptor 1 16 0) [op .write 0] [p]).ops ≠ []) := by decide +kernel

theorem witness_ReadBurstDelivered :
    let holds := fun kind =>
      let s := running (descriptor kind 16 8176) [⟨.read, 0, 8176, 16⟩] []
      s.power.core = true ∧ s.EntryLaw ∧ s.port.holder = .slot 0 ∧ (s.slot 0).port = .inProgress ∧
        (s.slot 0).ops.head? = some ⟨.read, 0, 8176, 16⟩ ∧ (8176 + 16 + 7) / 8 * 8 ≤ s.capacity.bytes
    (holds 2 ∧ descKind (descriptor 2 16 8176) = some .readOut) ∧
      (holds 5 ∧ descKind (descriptor 5 16 8176) = some .checksum) ∧
      (holds 3 ∧ descKind (descriptor 3 16 8176) = some .copy) := by unfold State.EntryLaw; decide +kernel

theorem witness_WritesDelivered :
    let holds := fun o =>
      let s := running (descriptor 4 16 0) [o] [⟨0, [1, 2]⟩]
      s.power.core = true ∧ s.EntryLaw ∧ s.MemoryLaw ∧ s.port.holder = .slot 0 ∧ (s.slot 0).port = .inProgress ∧
        (s.slot 0).ops = o :: [] ∧ (s.slot 0).inHand = ⟨0, [1, 2]⟩ :: [] ∧
        (o.addr + o.len + 7) / 8 * 8 ≤ s.capacity.bytes
    holds ⟨.write, 0, 2 ^ 30 - 8, 8⟩ ∧ holds ⟨.rmw, 0, 2 ^ 30 - 2, 2⟩ ∧
      Finding.asWritten.condition ≠ .uncorrectable := by unfold State.EntryLaw State.MemoryLaw; decide +kernel

theorem witness_RefreshCounted :
    (busy.power.core = true ∧ busy.EntryLaw ∧ busy.refresh.timer = some 78 ∧ busy.refresh.limit < busy.refresh.debt) ∧
      ({ act with port := { act.port with holder := .refreshEngine } }.port.holder = .refreshEngine) ∧
      { busy.refresh with debt := 4 }.debt ≤ busy.refresh.limit ∧
      busy.refresh.pendingLimit = some (busy.refresh.debt - 2) := by unfold State.EntryLaw; decide +kernel

theorem witness_ScrubPatrol :
    let s :=
      { act with
        scrub := { act.scrub with period := 1, timer := some 10, pointer := 2 ^ 30 - 64 }
        port := { act.port with holder := .scrubUnit } }
    s.power.core = true ∧ s.EntryLaw ∧ s.MemoryLaw ∧ s.scrub.timer = some 10 ∧ s.scrub.request = false ∧
      { s.scrub with request := true }.request = true ∧ s.port.holder = .scrubUnit ∧
      s.scrub.pointer + 64 ≤ s.capacity.bytes := by unfold State.EntryLaw State.MemoryLaw; decide +kernel

theorem witness_SelfRefreshSteps :
    let s :=
      { standby with
        memState := .exiting, ctl := { standby.ctl with op := .retained }
        port := { standby.port with holder := .selfRefreshExit } }
    (entering.power.core = true ∧ entering.port.holder = .selfRefreshEntry) ∧
      (s.power.core = true ∧ s.port.holder = .selfRefreshExit ∧ s.power.pwrWarn = false ∧ s.link.up = true ∧
        s.ctl.resetInExit = false ∧ s.port.entryRequest = false) ∧
      { s.power with pwrWarn := true }.pwrWarn = true := by decide +kernel

theorem witness_HealthReports :
    busy.HealthLaw ∧
      ([(0, Finding.asWritten), (8, ⟨.uncorrectable, none⟩), (64, ⟨.corrected, none⟩)] : List (Nat × Finding)).Pairwise
        (fun v w => v.1 < w.1) := by unfold State.HealthLaw; decide +kernel

theorem witness_DeletionAndQuiesceEnd :
    let deleting :=
      { act.setChan 0 { act.chan 0 with state := .deleting } with
        admin := { act.admin with processor := .executing, command := some ⟨record [(0, 7), (8, 1)], 1, .channelEmpty 0⟩ } }
    let quiescing := { act with ctl := { act.ctl with op := .quiescing } }
    (deleting.ctl.op = .active ∧ (deleting.chan 0).state = .deleting ∧ (deleting.chan 0).queue = [] ∧
        (deleting.chan 0).slot = none ∧ (deleting.chan 0).held = [] ∧
        ∀ p ∈ deleting.admin.command, p.wait = .channelEmpty 0) ∧
      (act.admin.command = none ∧ standby.ctl.op ≠ .active ∧ standby.ctl.op ≠ .quiescing ∧
        (act.chan 0).state ≠ .deleting) ∧ (busy.chan 0).slot ≠ none ∧ act.ctl.op ≠ .quiescing ∧ quiescing.ctl.op = .quiescing ∧
      (quiescing.chan 0).state = .running ∧ quiescing.fetchOf 0 = .empty ∧ quiescing.admin.processor ≠ .executing ∧
      (∀ d, d ≠ 0 → (quiescing.chan d).state = .absent) := by decide +kernel

theorem witness_HostReadsEnd :
    let holds := fun h => (reading h).power.core = true ∧ (reading h).EntryLaw ∧ (reading h).link.up = true ∧
      (reading h).ctl.op = .active ∧ ((reading h).tag 3).state = .waiting ∧ ((reading h).tag 3).holder = h ∧
      ((reading h).tag 3).orphan = false
    holds (.slot 0) ∧ ((reading (.slot 0)).slot 0).state = .run ∧
      descKind ((reading (.slot 0)).slot 0).entry = some .writeIn ∧ holds .admin ∧
      (reading .admin).adminFetch = .inFlight 1 ∧ (reading .admin).admin.processor = .idle ∧ holds (.channel 0) ∧
      (reading (.channel 0)).fetchOf 0 = .inFlight 1 ∧ (List.replicate 63 (0 : Byte)).length < 64 ∧
      64 ≤ (List.replicate 64 (0 : Byte)).length ∧
      { (reading (.slot 0)).tag 3 with orphan := true }.orphan = true ∧
      holds (.slot 1) ∧ ((reading (.slot 1)).slot 1).state ≠ .run ∧
      { (reading (.slot 0)).tag 3 with state := .quarantined }.state = .quarantined := by
  unfold State.EntryLaw; decide +kernel

/-- An orphaned fetch record, and a read in flight of either ring in a drain. -/
theorem witness_HostReadsEnd_dropped :
    let orphaned := { (reading (.channel 0)).setFetch 0 (.orphaned 1) with adminFetch := .orphaned 1 }
    let drained := draining .powerWarn .stop (reading (.channel 0))
    (orphaned.fetchOf 0 = .orphaned 1 ∧ orphaned.adminFetch = .orphaned 1 ∧ (orphaned.tag 3).state = .waiting) ∧
      (drained.fetchOf 0 = .inFlight 1 ∧ drained.ctl.op ≠ .active ∧ drained.ctl.op ≠ .quiescing ∧ drained.EntryLaw ∧
        (drained.tag 3).holder = .channel 0) ∧
      (draining .powerWarn .stop (reading .admin)).adminFetch = .inFlight 1 := by unfold State.EntryLaw; decide +kernel

/-- A completion of channel 1. -/
def finished : Completion :=
  { tag := 7, bytesDone := 16, result := 0, channel := 1, status := .ok, head := 1, notify := false }

/-- Channel 1 with one held completion, and ring 1 in this state. -/
def holding (st : RingState) : State :=
  { act with
    channels := act.channels.set 0 { act.chan 0 with held := [finished] }
    rings := act.rings.set 1 { act.ring 1 with state := st, unconsumed := 7, delay := 5, timer := some 1, threshold := 2 } }

theorem witness_CompletionsWritten :
    let s := holding .active
    let admin := { act with admin := { act.admin with handover := some { finished with channel := 0 } } }
    let deleting := { act.chan 0 with state := .deleting, queue := [⟨descriptor 1 1 0, 1⟩] }
    (s.power.core = true ∧ s.EntryLaw ∧ s.ctl.op = .active ∧ (s.ring 1).state = .active ∧
        (s.ring 1).unconsumed < (s.ring 1).size ∧ (1 : Fin 9) ≠ 0 ∧ (s.chan 0).ring = 1 ∧ (s.chan 0).held = [finished] ∧
        (∀ d, d ≠ 0 → (s.chan d).held = []) ∧ (s.ring 1).timer = some 1) ∧
      (admin.admin.handover.isSome = true ∧ (admin.ring 0).state = .active ∧
        (admin.ring 0).unconsumed < (admin.ring 0).size) ∧
      (((holding .faulted).ring 1).state = .faulted ∧ deleting.state = .deleting ∧ deleting.slot = none ∧
        deleting.held.length < 4 ∧ deleting.queue ≠ []) ∧
      ({ act.ring 0 with state := .faulted }.state = .faulted) := by unfold State.EntryLaw; decide +kernel

theorem witness_DrainPhases :
    let stop := fun reason => draining reason .stop act
    let flush := draining .hostRequest .flush (holding .active)
    ((stop .powerWarn).power.core = true ∧ (stop .powerWarn).EntryLaw ∧ (stop .powerWarn).ctl.op = .draining ∧
        (stop .powerWarn).ctl.phase = .stop ∧ (∀ k, ((stop .powerWarn).slot k).state = .idle) ∧
        (∀ d, ((stop .powerWarn).chan d).queue = []) ∧ (stop .powerWarn).ctl.working.reason = .powerWarn ∧
        (stop .powerWarn).link.up = true ∧ (stop .powerWarn).ctl.expired = false) ∧
      (stop .monitorTrip).ctl.working.reason ≠ .powerWarn ∧ (stop .monitorTrip).ctl.working.reason ≠ .hostRequest ∧
      (flush.ctl.phase = .flush ∧ (flush.ring 1).state = .active ∧ (flush.ring 1).unconsumed < (flush.ring 1).size ∧
        (flush.chan 0).held = [finished] ∧ (flush.chan 0).flush = [] ∧ (flush.chan 0).ring = 1 ∧
        flush.ctl.deadline = some 5) ∧
      ((draining .hostRequest .flush (holding .faulted)).ring 1).state = .faulted ∧
      (let s := draining .hostRequest .flush act
       (∀ d, (s.chan d).held = [] ∧ (s.chan d).flush = []) ∧ s.ctl.adminDone = none ∧
         { s.ctl with adminDone := some finished }.adminDone = some finished ∧ (s.ring 0).state = .active ∧
         (s.ring 0).unconsumed < (s.ring 0).size) ∧
      { act.ring 0 with state := .faulted }.state = .faulted ∧
      (busy.slot 0).state ≠ .idle ∧ { (stop .powerWarn).ctl with expired := true }.expired = true ∧
      ((draining .powerWarn .stop marking).chan 0).queue ≠ [] ∧ ((draining .powerWarn .stop marking).chan 0).slot = none ∧
      act.ctl.op ≠ .draining ∧ flush.ctl.phase ≠ .stop := by unfold State.EntryLaw; decide +kernel

/-- R157: a fetched descriptor of a channel with no slot ends TERMINATED and is counted, and STOP passes to FLUSH. -/
theorem test_stop_terminates_fetched :
    (fun t : State => (t.ctl.phase, (t.chan 0).flush.map Completion.status, (t.ctl.working.channels.get 0).terminated))
      (stopStep (draining .powerWarn .stop marking)) = (.flush, [.terminated], 1) := by decide +kernel

end Sys2Proof.Tests
end

section
/-! SUPPORT. The Partition Table entry by entry: what each of its operations leaves of one entry, and the relation
`Partition.Follows` between an entry and what it can become without being defined (R3, R8, R9, R13 to R16, R18). -/

-- One theorem at a time, as in the tests above: fewer threads than the memory limit allows.
set_option Elab.async false

namespace Sys2Proof.Machine

/-! ### Which entry a reference names (R5) -/

theorem partitionIndex_eq_some {id : BitVec 8} {i : Fin 16} : partitionIndex id = some i ↔ id.toNat = i.val := by
  unfold partitionIndex
  split
  · simp [Fin.ext_iff]
  · simp only [reduceCtorEq, false_iff]; omega

theorem partitionIndex_eq_none {id : BitVec 8} : partitionIndex id = none ↔ 16 ≤ id.toNat := by
  unfold partitionIndex
  split
  · simp; omega
  · simp; omega

/-! ### One operation, one entry -/

/-- An entry with one reference more (R6). -/
def Partition.referenced (p : Partition) (write : Bool) : Partition :=
  { p with refs := p.refs + 1, writeRefs := p.writeRefs + write.toNat }

/-- An entry with one reference fewer (R8). -/
def Partition.dereferenced (p : Partition) (write : Bool) : Partition :=
  { p with refs := p.refs - 1, writeRefs := p.writeRefs - write.toNat }

/-- A table operation that rewrites only the entry a reference names, if it names one. -/
theorem part_of_updated {s t : State} {o : Option (Fin 16)} {g : Partition → Partition} (hn : o = none → t = s)
    (hs : ∀ j, o = some j → t = s.setPart j (g (s.part j))) (i : Fin 16) :
    t.part i = if o = some i then g (s.part i) else s.part i := by
  cases o with
  | none => simp [hn rfl]
  | some j =>
    rw [hs j rfl, State.setPart_part]
    by_cases h : i = j
    · simp [h]
    · simp [h, Ne.symm h]

theorem takeRef_part (s : State) (r : BufferRef) (w : Bool) (i : Fin 16) :
    (takeRef s r w).part i =
      if partitionIndex r.partition = some i then (s.part i).referenced w else s.part i :=
  part_of_updated (g := (·.referenced w)) (fun h => by simp [takeRef, h])
    (fun j h => by simp [takeRef, h, Partition.referenced]) i

theorem markTorn_part (s : State) (r : BufferRef) (i : Fin 16) :
    (markTorn s r).part i =
      if partitionIndex r.partition = some i then { s.part i with torn := true } else s.part i :=
  part_of_updated (g := fun p => { p with torn := true }) (fun h => by simp [markTorn, h])
    (fun j h => by simp [markTorn, h]) i

theorem dropRef_part (s : State) (r : BufferRef) (w : Bool) (i : Fin 16) :
    (dropRef s r w).part i =
      if partitionIndex r.partition = some i then (s.part i).dereferenced w else s.part i :=
  part_of_updated (g := (·.dereferenced w)) (fun h => by simp [dropRef, h])
    (fun j h => by simp [dropRef, h, Partition.dereferenced]) i

@[simp] theorem handOverAdmin_part (s : State) (st : Status) (v : Word32) (i : Fin 16) :
    (s.handOverAdmin st v).part i = s.part i := by
  obtain ⟨a, h⟩ := handOverAdmin_eq s st v
  rw [h]; rfl

theorem freePart_part (s : State) (i j : Fin 16) :
    (freePart s i).part j = if j = i then Partition.freed (s.part i).generation else s.part j :=
  State.setPart_part _ _ _ _

/-- The entry that a reference names becomes FREE where it is RELEASING and no reference is left. -/
theorem freeIfReleased_part (s : State) (r : BufferRef) (i : Fin 16) :
    (freeIfReleased s r).part i =
      if partitionIndex r.partition = some i ∧ (s.part i).state = .releasing ∧ (s.part i).refs = 0 then
        Partition.freed (s.part i).generation
      else s.part i := by
  unfold freeIfReleased
  split
  · simp [*]
  · rename_i j hj
    by_cases h : i = j
    · subst h
      by_cases hf : (s.part i).state = .releasing ∧ (s.part i).refs = 0
      · simp only [hf, hj, and_self, if_true]
        split <;> simp [freePart_part]
      · simp [hf]
    · have hn : ¬ j = i := fun e => h e.symm
      simp only [hj, Option.some.injEq, hn, false_and, if_false]
      split
      · split <;> simp [freePart_part, h]
      · rfl

/-! ### What an entry can become (R3, R13) -/

/-- The entry is FREE with no range and no reference (R18). -/
def Partition.Cleared (q : Partition) : Prop :=
  q.state = .free ∧ q.base = 0 ∧ q.length = 0 ∧ q.refs = 0 ∧ q.writeRefs = 0

/-- What entry `p` can become other than by a definition or a power-on: the generation stays, and either the entry is
FREE with nothing in it, or its range stays and it is FREE exactly if it was, then still without a reference. -/
def Partition.Follows (p q : Partition) : Prop :=
  q.generation = p.generation ∧
    (q.Cleared ∨
      ((q.state = .free ↔ p.state = .free) ∧ q.base = p.base ∧ q.length = p.length ∧
        (p.state = .free → p.refs = 0 → p.writeRefs = 0 → q.refs = 0 ∧ q.writeRefs = 0)))

theorem Partition.Follows.refl (p : Partition) : p.Follows p :=
  ⟨rfl, .inr ⟨.rfl, rfl, rfl, fun _ h h' => ⟨h, h'⟩⟩⟩

theorem Partition.Follows.trans {p q r : Partition} (h : p.Follows q) (h' : q.Follows r) : p.Follows r := by
  obtain ⟨hg, hq⟩ := h
  obtain ⟨hg', hr⟩ := h'
  refine ⟨hg'.trans hg, ?_⟩
  obtain hr | ⟨hs', hb', hl', hz'⟩ := hr
  · exact .inl hr
  · obtain ⟨hs, hb, hl, hz, hw⟩ | ⟨hs, hb, hl, hz⟩ := hq
    · obtain ⟨e, e'⟩ := hz' hs hz hw
      exact .inl ⟨hs'.mpr hs, hb'.trans hb, hl'.trans hl, e, e'⟩
    · refine .inr ⟨hs'.trans hs, hb'.trans hb, hl'.trans hl, fun hf hr hw => ?_⟩
      obtain ⟨e, e'⟩ := hz hf hr hw
      exact hz' (hs.mpr hf) e e'

theorem Partition.follows_freed (p : Partition) : p.Follows (Partition.freed p.generation) :=
  ⟨rfl, .inl ⟨rfl, rfl, rfl, rfl, rfl⟩⟩

theorem Partition.follows_torn (p : Partition) (b : Bool) : p.Follows { p with torn := b } :=
  ⟨rfl, .inr ⟨.rfl, rfl, rfl, fun _ h h' => ⟨h, h'⟩⟩⟩

theorem Partition.follows_dereferenced (p : Partition) (w : Bool) : p.Follows (p.dereferenced w) :=
  ⟨rfl, .inr ⟨.rfl, rfl, rfl, fun _ h h' => by simp [Partition.dereferenced, h, h']⟩⟩

theorem Partition.follows_referenced {p : Partition} (h : p.state ≠ .free) (w : Bool) : p.Follows (p.referenced w) :=
  ⟨rfl, .inr ⟨.rfl, rfl, rfl, fun hf => absurd hf h⟩⟩

/-- An entry in use takes another state in use (R14, R16). -/
theorem Partition.follows_state {p : Partition} {x : PartitionState} (h : p.state ≠ .free) (hx : x ≠ .free) :
    p.Follows { p with state := x } :=
  ⟨rfl, .inr ⟨by simp [h, hx], rfl, rfl, fun hf => absurd hf h⟩⟩

/-! ### What a descriptor's end and its start do to each entry (R6, R8) -/

theorem markTorn_follows (s : State) (r : BufferRef) (i : Fin 16) : (s.part i).Follows ((markTorn s r).part i) := by
  rw [markTorn_part]
  split
  · exact Partition.follows_torn _ true
  · exact .refl _

theorem dropRef_follows (s : State) (r : BufferRef) (w : Bool) (i : Fin 16) :
    (s.part i).Follows ((dropRef s r w).part i) := by
  rw [dropRef_part]
  split
  · exact Partition.follows_dereferenced _ w
  · exact .refl _

theorem freeIfReleased_follows (s : State) (r : BufferRef) (i : Fin 16) :
    (s.part i).Follows ((freeIfReleased s r).part i) := by
  rw [freeIfReleased_part]
  split
  · exact Partition.follows_freed _
  · exact .refl _

theorem releaseRefs_follows (s : State) (sl : Slot) (w torn : Bool) (i : Fin 16) :
    (s.part i).Follows ((releaseRefs s sl w torn).part i) := by
  have ht : (s.part i).Follows ((if torn then markTorn s (refA sl.entry) else s).part i) := by
    split
    · exact markTorn_follows s _ i
    · exact .refl _
  unfold releaseRefs
  split
  · exact .refl _
  · exact ht.trans ((dropRef_follows _ _ _ i).trans (freeIfReleased_follows _ _ i))
  · exact ht.trans ((dropRef_follows _ _ _ i).trans ((dropRef_follows _ _ _ i).trans
      ((freeIfReleased_follows _ _ i).trans (freeIfReleased_follows _ _ i))))

/-- A reference that passes the tests of R5 names an entry in use. -/
theorem checkRef_none_inUse {s : State} {r : BufferRef} {c : Fin 16} {w : Bool} {len : Nat}
    (h : checkRef s r c w len = none) {i : Fin 16} (hi : partitionIndex r.partition = some i) :
    (s.part i).state ≠ .free := by
  intro hf
  simp [checkRef, hi, hf] at h

theorem takeRef_follows {s : State} {r : BufferRef} (w : Bool)
    (h : ∀ i, partitionIndex r.partition = some i → (s.part i).state ≠ .free) (i : Fin 16) :
    (s.part i).Follows ((takeRef s r w).part i) := by
  rw [takeRef_part]
  split
  · exact Partition.follows_referenced (h i ‹_›) w
  · exact .refl _

@[simp] theorem takeRef_part_state (s : State) (r : BufferRef) (w : Bool) (i : Fin 16) :
    ((takeRef s r w).part i).state = (s.part i).state := by
  rw [takeRef_part]
  split <;> rfl

theorem presentationStatus_none {s : State} {r : Record} {k : Kind} {c : Fin 16}
    (h : presentationStatus s r k c = none) :
    checkRef s (refA r) c k.writes (descLength r) = none ∧
      (k = .copy → checkRef s (refB r) c false (descLength r) = none ∧
        rangesMeet (refAddress s (refA r)) (refAddress s (refB r)) (descLength r) = false) := by
  unfold presentationStatus at h
  split at h
  · cases h
  · rename_i ha
    refine ⟨ha, fun hk => ?_⟩
    rw [if_pos hk] at h
    split at h
    · cases h
    · rename_i hb
      refine ⟨hb, ?_⟩
      split at h
      · cases h
      · rename_i hm
        simpa using hm

theorem takeRefs_follows {s : State} {r : Record} {k : Kind} {c : Fin 16}
    (h : presentationStatus s r k c = none) (i : Fin 16) : (s.part i).Follows ((takeRefs s r k).part i) := by
  obtain ⟨ha, hb⟩ := presentationStatus_none h
  have hA := takeRef_follows k.writes (fun j => checkRef_none_inUse ha) i
  unfold takeRefs
  simp only
  split
  · rename_i hk
    refine hA.trans (takeRef_follows false (fun j hj => ?_) i)
    rw [takeRef_part_state]
    exact checkRef_none_inUse (hb hk).1 hj
  · exact hA

end Sys2Proof.Machine
end

section
/-! SUPPORT. `State.Keeps`: the queue of commands, the capacity, what the host has received and buffer memory are as
they were, and every partition entry follows from what it was. Each shared operation keeps them; so does every command
but POWER_ON, DEFINE_PARTITION and, for buffer memory, the three that store to it. -/

-- One theorem at a time, as in the tests above: fewer threads than the memory limit allows.
set_option Elab.async false

namespace Sys2Proof.Machine

/-- The queue of commands, the capacity, what the host has received and buffer memory are as in `s`, and every partition
entry follows from what it is in `s`. -/
structure State.Keeps (s t : State) : Prop where
  pending   : t.pending = s.pending
  capacity  : t.capacity = s.capacity
  delivered : t.link.delivered = s.link.delivered
  mem       : t.mem = s.mem
  parts     : ∀ i, (s.part i).Follows (t.part i)

namespace State.Keeps

theorem refl (s : State) : s.Keeps s := ⟨rfl, rfl, rfl, rfl, fun _ => .refl _⟩

theorem trans {s t u : State} (h : s.Keeps t) (h' : t.Keeps u) : s.Keeps u :=
  ⟨h'.pending.trans h.pending, h'.capacity.trans h.capacity, h'.delivered.trans h.delivered, h'.mem.trans h.mem,
    fun i => (h.parts i).trans (h'.parts i)⟩

/-- Nothing that `Keeps` speaks of has changed; for an update of other fields each equation holds by computation. -/
theorem untouched {s t : State} (hq : t.pending = s.pending := by rfl) (hc : t.capacity = s.capacity := by rfl)
    (hd : t.link.delivered = s.link.delivered := by rfl) (hm : t.mem = s.mem := by rfl)
    (hp : t.partitions = s.partitions := by rfl) : s.Keeps t :=
  ⟨hq, hc, hd, hm, fun i => by rw [State.part, State.part, hp]; exact .refl _⟩

/-- Of what `Keeps` speaks of, the Partition Table alone has changed. -/
theorem of_table {s t : State} (h : ∃ ps a, t = { s with partitions := ps, admin := a })
    (hp : ∀ i, (s.part i).Follows (t.part i)) : s.Keeps t := by
  obtain ⟨ps, a, rfl⟩ := h
  exact ⟨rfl, rfl, rfl, rfl, hp⟩

theorem foldl {α : Type} {f : State → α → State} (hf : ∀ (s : State) (a : α), s.Keeps (f s a)) (l : List α)
    (s : State) : s.Keeps (l.foldl f s) := by
  induction l generalizing s with
  | nil => exact .refl s
  | cons a l ih => exact (hf s a).trans (ih _)

end State.Keeps

/-! ### Handing over, vectors, grants -/

theorem keeps_setPart {s : State} {i : Fin 16} {p : Partition} (h : (s.part i).Follows p) : s.Keeps (s.setPart i p) :=
  ⟨rfl, rfl, rfl, rfl, fun j => by
    rw [State.setPart_part]
    split
    · subst_vars; exact h
    · exact .refl _⟩

theorem keeps_setSlot (s : State) (k : Fin 4) (x : Slot) : s.Keeps (s.setSlot k x) := .untouched

theorem keeps_handOut (s : State) (o : Outbound) : s.Keeps (s.handOut o) := by
  obtain ⟨q, h⟩ := handOut_eq s o
  rw [h]; exact .untouched

theorem keeps_raise (s : State) (c : Cause) : s.Keeps (s.raise c) := by
  obtain ⟨e, q, h⟩ := raise_eq s c
  rw [h]; exact .untouched

theorem keeps_raiseAlert (s : State) (d : AlertDetail) : s.Keeps (s.raiseAlert d) :=
  (keeps_raise s _).trans (.untouched)

theorem keeps_handOverAdmin (s : State) (st : Status) (v : Word32) : s.Keeps (s.handOverAdmin st v) := by
  obtain ⟨a, h⟩ := handOverAdmin_eq s st v
  rw [h]; exact .untouched

theorem keeps_elapse (s : State) (n : Nat) : s.Keeps (s.elapse n) := .untouched

theorem keeps_sendVector (s : State) (r : Fin 9) : s.Keeps (sendVector s r) := by
  obtain ⟨q, rs, h⟩ := sendVector_eq s r
  rw [h]; exact .untouched

theorem keeps_signalRest (s : State) (r : Fin 9) : s.Keeps (signalRest s r) := by
  obtain ⟨q, rs, h⟩ := signalRest_eq s r
  rw [h]; exact .untouched

theorem keeps_writeEntry (s : State) (r : Fin 9) (c : Completion) : s.Keeps (writeEntry s r c) := by
  obtain ⟨q, rs, h⟩ := writeEntry_eq s r c
  rw [h]; exact .untouched

theorem keeps_settleLink (s : State) : s.Keeps (settleLink s) := by
  obtain ⟨hl, hm, hp, -, -, -, -, -, -, -, -, -, -, -, -, -, hc, -, -, -, hq⟩ :=
    besideGrants_of_besideTags (besideTags_settleLink s)
  exact .untouched hq hc (congrArg (·.delivered) hl) hm hp

theorem keeps_settlePort (s : State) : s.Keeps (settlePort s) := by
  unfold settlePort
  split
  · cases portChoice s <;> exact .untouched
  · exact .refl s

theorem keeps_offerLine (s : State) (a : Nat) : s.Keeps (offerLine s a) := by
  obtain ⟨hs, e, q, h⟩ := offerLine_eq s a
  rw [h]; exact .untouched

theorem keeps_reportFindings (s : State) (ws : List (Nat × Finding)) : s.Keeps (reportFindings s ws) := by
  obtain ⟨hs, e, q, h⟩ := reportFindings_eq s ws
  rw [h]; exact .untouched

/-! ### Slots -/

theorem keeps_releaseRefs (s : State) (sl : Slot) (w torn : Bool) : s.Keeps (releaseRefs s sl w torn) :=
  .of_table (releaseRefs_eq s sl w torn) (releaseRefs_follows s sl w torn)

theorem keeps_takeRefs {s : State} {r : Record} {k : Kind} {c : Fin 16} (h : presentationStatus s r k c = none) :
    s.Keeps (takeRefs s r k) := by
  obtain ⟨ps, e⟩ := takeRefs_eq s r k
  exact .of_table ⟨ps, s.admin, e⟩ (takeRefs_follows h)

theorem keeps_endInChannel (s : State) (sl : Slot) (st : Status) : s.Keeps (endInChannel s sl st) := by
  obtain ⟨cs, w, h⟩ := endInChannel_eq s sl st
  rw [h]; exact .untouched

theorem keeps_endSlot (s : State) (k : Fin 4) (st : Status) : s.Keeps (endSlot s k st) := by
  have h : s.Keeps (endReferences s (s.slot k) st) := keeps_releaseRefs _ _ _ _
  unfold endSlot
  simp only
  split
  · exact h.trans (keeps_setSlot _ _ _)
  · exact h.trans ((keeps_endInChannel _ _ _).trans (keeps_setSlot _ _ _))

theorem keeps_runSlot (s : State) (k : Fin 4) : s.Keeps (runSlot s k) := by
  unfold runSlot
  simp only
  split
  · exact (keeps_setSlot _ _ _).trans (keeps_endSlot _ _ _)
  · split
    · split <;> exact keeps_setSlot _ _ _
    · exact .refl s

theorem keeps_finishSlot (s : State) (k : Fin 4) : s.Keeps (finishSlot s k) := by
  unfold finishSlot
  simp only
  split
  · exact .refl s
  · split
    · exact keeps_setSlot _ _ _
    · split
      · exact keeps_setSlot _ _ _
      · exact keeps_endSlot _ _ _

theorem keeps_advanceSlot (s : State) (k : Fin 4) : s.Keeps (advanceSlot s k) := by
  unfold advanceSlot
  split
  · exact .refl s
  · exact .refl s
  · exact keeps_runSlot s k
  · exact keeps_finishSlot s k

theorem keeps_orphanReads (s : State) (k : Fin 4) : s.Keeps (orphanReads s k) := .untouched

theorem keeps_leaveRun (s : State) (k : Fin 4) (sl : Slot) : s.Keeps (leaveRun s k sl) :=
  (keeps_orphanReads s k).trans ((keeps_setSlot _ _ _).trans (keeps_finishSlot _ _))

theorem keeps_stopSlot (s : State) (k : Fin 4) (q : StopRequest) : s.Keeps (stopSlot s k q) := by
  unfold stopSlot
  simp only
  split
  · exact .refl s
  · exact (keeps_setSlot _ _ _).trans (keeps_endSlot _ _ _)
  · exact keeps_leaveRun s k _
  · exact keeps_setSlot _ _ _

theorem keeps_stopAllSlots (s : State) (q : StopRequest) : s.Keeps (stopAllSlots s q) :=
  .foldl (fun s k => keeps_stopSlot s k q) _ s

theorem keeps_stopBoundSlot (s : State) (c : Fin 16) : s.Keeps (stopBoundSlot s c) := by
  unfold stopBoundSlot
  split
  · exact .refl s
  · exact keeps_stopSlot s _ _

theorem keeps_refuseSlot (s : State) (k : Fin 4) (st : Status) : s.Keeps (refuseSlot s k st) :=
  (keeps_setSlot _ _ _).trans (keeps_endSlot _ _ _)

theorem keeps_carryOutMark (s : State) (c : Fin 16) (r : Record) : s.Keeps (carryOutMark s c r).1 := by
  obtain ⟨cs, h⟩ := carryOutMark_eq s c r
  rw [h]; exact .untouched

theorem keeps_checkFields (s : State) (k : Fin 4) : s.Keeps (checkFields s k) := by
  unfold checkFields
  simp only
  split
  · exact keeps_refuseSlot s k _
  · split
    · exact (keeps_carryOutMark _ _ _).trans ((keeps_setSlot _ _ _).trans (keeps_endSlot _ _ _))
    · exact .refl s

theorem keeps_enterRun {s : State} {k : Fin 4} {kind : Kind} {c : Fin 16}
    (h : presentationStatus s (s.slot k).entry kind c = none) : s.Keeps (enterRun s k kind) :=
  (keeps_takeRefs h).trans ((keeps_setSlot _ _ _).trans (keeps_advanceSlot _ _))

theorem keeps_readTaken (s : State) (k : Fin 4) (o : SlotOp) (good : List Byte) (failed : Bool) :
    s.Keeps (readTaken s k o good failed) := by
  unfold readTaken
  simp only
  split
  · split
    · exact keeps_setSlot _ _ _
    · exact (keeps_handOut _ _).trans (keeps_setSlot _ _ _)
  · exact keeps_setSlot _ _ _
  · split <;> exact keeps_setSlot _ _ _
  · exact keeps_setSlot _ _ _

/-! ### The ends of host reads -/

theorem keeps_slotReadDone (s : State) (k : Fin 4) (pos : Nat) (bs : List Byte) :
    s.Keeps (slotReadDone s k pos bs) := by
  unfold slotReadDone
  simp only
  split
  · exact (keeps_setSlot _ _ _).trans (keeps_advanceSlot _ _)
  · exact .refl s

theorem keeps_slotReadFailed (s : State) (k : Fin 4) : s.Keeps (slotReadFailed s k) := by
  unfold slotReadFailed
  simp only
  split
  · exact keeps_leaveRun _ _ _
  · exact .refl s

theorem keeps_channelFetchDone (s : State) (c : Fin 16) (bs : List Byte) : s.Keeps (channelFetchDone s c bs) := by
  obtain ⟨cs, fs, h⟩ := channelFetchDone_eq s c bs
  rw [h]; exact .untouched

theorem keeps_channelFetchFailed (s : State) (c : Fin 16) : s.Keeps (channelFetchFailed s c) := by
  obtain ⟨cs, fs, e, q, h⟩ := channelFetchFailed_eq s c
  rw [h]; exact .untouched

theorem keeps_adminFetchDone (s : State) (bs : List Byte) : s.Keeps (adminFetchDone s bs) := by
  obtain ⟨a, f, h⟩ := adminFetchDone_eq s bs
  rw [h]; exact .untouched

theorem keeps_adminFetchFailed (s : State) : s.Keeps (adminFetchFailed s) := by
  obtain ⟨a, f, e, q, h⟩ := adminFetchFailed_eq s
  rw [h]; exact .untouched

theorem keeps_readDone (s : State) (x : Tag) (bs : List Byte) : s.Keeps (readDone s x bs) := by
  unfold readDone
  split
  · exact .refl s
  · split
    · exact .refl s
    · exact keeps_slotReadDone _ _ _ _
  · exact keeps_adminFetchDone s bs
  · exact keeps_channelFetchDone s _ bs

theorem keeps_readFailed (s : State) (x : Tag) : s.Keeps (readFailed s x) := by
  unfold readFailed
  split
  · exact .refl s
  · split
    · exact .refl s
    · exact keeps_slotReadFailed _ _
  · exact keeps_adminFetchFailed s
  · exact keeps_channelFetchFailed s _

theorem keeps_setTag (s : State) (g : Fin 16) (x : Tag) : s.Keeps (s.setTag g x) := .untouched

theorem keeps_failTag (s : State) (g : Fin 16) : s.Keeps (failTag s g) := by
  unfold failTag
  simp only
  split
  · exact (keeps_setTag _ _ _).trans (keeps_readFailed _ _)
  · exact keeps_setTag _ _ _

theorem keeps_failAllTags (s : State) : s.Keeps (failAllTags s) := .foldl keeps_failTag _ s

/-! ### Passages -/

theorem keeps_endDeletion (s : State) : s.Keeps (endDeletion s) := by
  obtain ⟨cs, fs, rs, a, h⟩ := endDeletion_eq s
  rw [h]; exact .untouched

theorem keeps_quiesceStep (s : State) : s.Keeps (quiesceStep s) := by
  have h : s.Keeps (allChannels.foldl quiesceChannel s) := by
    obtain ⟨cs, fs, rs, e⟩ := foldl_quiesceChannel_eq allChannels s
    rw [e]; exact .untouched
  have hend : ∀ u : State, u.Keeps (endQuiesce u) := fun u => by
    obtain ⟨rs, q, e⟩ := endQuiesce_eq u
    rw [e]; exact .untouched
  unfold quiesceStep
  simp only
  split
  · split
    · exact h.trans (hend _)
    · exact h
  · exact .refl s

theorem keeps_beginSettle (s : State) : s.Keeps (beginSettle s) := by
  obtain ⟨cs, fs, rs, q, w, a, h⟩ := beginSettle_eq s
  rw [h]; exact .untouched

theorem keeps_endFlush (s : State) (o : FlushOutcome) : s.Keeps (endFlush s o) := by
  obtain ⟨cs, fs, rs, q, w, a, h⟩ := endFlush_eq s o
  rw [h]; exact .untouched

theorem keeps_settleStandby (s : State) : s.Keeps (settleStandby s) := by
  unfold settleStandby
  exact State.Keeps.trans .untouched (keeps_beginSettle _)

theorem keeps_endStop (s : State) : s.Keeps (endStop s) := by
  unfold endStop
  split
  · split
    · exact keeps_endFlush _ _
    · exact .untouched
  · exact keeps_beginSettle s

theorem keeps_stopStep (s : State) : s.Keeps (stopStep s) := by
  have h : s.Keeps (allChannels.foldl terminateFetched s) := by
    obtain ⟨cs, w, e⟩ := foldl_terminateFetched_eq allChannels s
    rw [e]; exact .untouched
  unfold stopStep
  simp only
  split
  · split
    · exact h.trans (keeps_endStop _)
    · exact h
  · exact .refl s

theorem keeps_flushStep (s : State) : s.Keeps (flushStep s) := by
  unfold flushStep
  split
  · exact keeps_endFlush _ _
  · exact .refl s

theorem keeps_settlePhases (s : State) : s.Keeps (settlePhases s) :=
  (keeps_endDeletion s).trans ((keeps_quiesceStep _).trans ((keeps_stopStep _).trans (keeps_flushStep _)))

theorem keeps_conclude (s : State) : s.Keeps (conclude s) :=
  (keeps_settlePhases s).trans ((keeps_settleLink _).trans (keeps_settlePort _))

theorem keeps_startDrain (s : State) (reason : DrainReason) : s.Keeps (startDrain s reason) := by
  unfold startDrain
  exact State.Keeps.trans .untouched (keeps_stopAllSlots _ _)

theorem keeps_trigger (s : State) (reason : DrainReason) : s.Keeps (trigger s reason) := by
  unfold trigger
  split
  · exact keeps_startDrain s reason
  · exact .refl s

end Sys2Proof.Machine
end

section
/-! SUPPORT. What each command can do to what `State.Keeps` speaks of: one lemma for each command, and for all of them
`exec_answers`. -/

-- One theorem at a time, as in the tests above: fewer threads than the memory limit allows.
set_option Elab.async false

namespace Sys2Proof.Machine

/-- The outcome is a next state that keeps what `s` holds. -/
def State.Answers (s : State) (o : Out) : Prop := ∃ t, o = .next t ∧ s.Keeps t

theorem answers_next {s t : State} (h : s.Keeps t) : s.Answers (.next t) := ⟨t, rfl, h⟩

theorem answers_same (s : State) : s.Answers (.next s) := answers_next (.refl s)

/-- A command that does `t` where its condition holds and otherwise nothing. -/
theorem answers_ite {s t : State} {p : Prop} [Decidable p] (h : p → s.Keeps t) :
    s.Answers (.next (if p then t else s)) := by
  split
  · exact answers_next (h ‹_›)
  · exact answers_same s

/-! ### Commands of the admin ring (R134) -/

theorem keeps_refused (s : State) (st : Status) : s.Keeps (Taken.refused s st).state := keeps_handOverAdmin s st 0

theorem keeps_done {s t : State} (h : s.Keeps t) (st : Status) (v : Word32) : s.Keeps (Taken.done t st v).state :=
  h.trans (keeps_handOverAdmin t st v)

theorem keeps_beginCommand (s : State) (f : Fetched) (rest : List Fetched) : s.Keeps (beginCommand s f rest) :=
  .untouched

theorem answers_takeCommand {codes : Nat → Bool} {body : State → Record → Taken} {fin : State → State}
    (hb : ∀ (s : State) (r : Record), s.Keeps (body s r).state) (hf : ∀ s : State, s.Keeps (fin s)) (s : State) :
    s.Answers (takeCommand codes body fin s) := by
  unfold takeCommand
  split
  · exact answers_same s
  · split
    · exact answers_next ((keeps_beginCommand s _ _).trans ((hb _ _).trans (hf _)))
    · exact answers_same s

theorem keeps_withPartition {s : State} {r : Record} {body : Fin 16 → Taken} (h : ∀ i, s.Keeps (body i).state) :
    s.Keeps (withPartition s r body).state := by
  unfold withPartition
  split
  · exact keeps_refused s _
  · split
    · exact keeps_refused s _
    · exact h _

theorem keeps_withChannel {s : State} {r : Record} {body : Fin 16 → Taken} (h : ∀ c, s.Keeps (body c).state) :
    s.Keeps (withChannel s r body).state := by
  unfold withChannel
  split
  · exact keeps_refused s _
  · split
    · exact keeps_refused s _
    · exact h _

theorem keeps_freezePart (s : State) (i : Fin 16) : s.Keeps (freezePart s i).state := by
  unfold freezePart
  split
  · exact keeps_refused s _
  · rename_i ho
    split
    · exact keeps_refused s _
    · split
      · exact keeps_refused s _
      · refine keeps_done (keeps_setPart (Partition.follows_state ?_ (by decide))) _ _
        simp only [ne_eq, not_not] at ho
        simp [ho]

theorem keeps_releasePart (s : State) (i : Fin 16) : s.Keeps (releasePart s i).state := by
  unfold releasePart
  split
  · exact keeps_refused s _
  · rename_i ho
    split
    · exact keeps_done (keeps_setPart (Partition.follows_freed _)) _ _
    · refine (keeps_setPart (Partition.follows_state (x := .releasing) (fun hf => ho ?_) (by decide))).trans
        .untouched
      simp [hf]

theorem keeps_clearTornPart (s : State) (i : Fin 16) : s.Keeps (clearTornPart s i).state := by
  unfold clearTornPart
  split
  · exact keeps_refused s _
  · exact keeps_done (keeps_setPart (Partition.follows_torn _ false)) _ _

theorem keeps_getPartitions (s : State) (r : Record) : s.Keeps (getPartitions s r).state := by
  unfold getPartitions
  split
  · exact keeps_done (keeps_handOut s _) _ _
  · exact keeps_refused s _

theorem keeps_createChannel (s : State) (r : Record) : s.Keeps (createChannel s r).state := by
  unfold createChannel
  split
  · exact keeps_refused s _
  · split
    · exact keeps_refused s _
    · split
      · exact keeps_refused s _
      · split
        · exact keeps_refused s _
        · split
          · exact keeps_refused s _
          · split
            · split
              · exact keeps_done .untouched _ _
              · exact keeps_refused s _
            · exact keeps_refused s _

theorem keeps_deleteChan (s : State) (c : Fin 16) : s.Keeps (deleteChan s c).state := by
  unfold deleteChan
  exact State.Keeps.trans .untouched (keeps_stopBoundSlot _ _)

theorem keeps_pauseChan (s : State) (c : Fin 16) : s.Keeps (pauseChan s c).state := by
  unfold pauseChan
  split
  · exact keeps_refused s _
  · exact keeps_done .untouched _ _

theorem keeps_resumeChan (s : State) (c : Fin 16) : s.Keeps (resumeChan s c).state := by
  unfold resumeChan
  simp only
  split
  · exact keeps_done .untouched _ _
  · exact keeps_refused s _

theorem keeps_createCq (s : State) (r : Record) : s.Keeps (createCq s r).state := by
  unfold createCq
  split
  · exact keeps_refused s _
  · split
    · exact keeps_refused s _
    · split
      · exact keeps_done .untouched _ _
      · exact keeps_refused s _

theorem keeps_deleteCq (s : State) (r : Record) : s.Keeps (deleteCq s r).state := by
  unfold deleteCq
  split
  · exact keeps_refused s _
  · split
    · exact keeps_refused s _
    · split
      · exact keeps_refused s _
      · exact keeps_done ((keeps_signalRest _ _).trans .untouched) _ _

theorem keeps_setRefresh (s : State) (r : Record) : s.Keeps (setRefresh s r).state := by
  unfold setRefresh
  simp only
  split
  · exact keeps_refused s _
  · split
    · exact keeps_refused s _
    · exact keeps_done .untouched _ _

theorem keeps_setScrub (s : State) (r : Record) : s.Keeps (setScrub s r).state := by
  unfold setScrub
  simp only
  split
  · exact keeps_refused s _
  · exact keeps_done .untouched _ _

theorem keeps_getHealth (s : State) (r : Record) : s.Keeps (getHealth s r).state := by
  unfold getHealth
  split
  · exact keeps_done (keeps_handOut s _) _ _
  · exact keeps_refused s _

theorem keeps_clearErrors (s : State) (r : Record) : s.Keeps (clearErrors s r).state :=
  keeps_done .untouched _ _

theorem keeps_setMonitor (s : State) (r : Record) : s.Keeps (setMonitor s r).state := by
  unfold setMonitor
  simp only
  split
  · exact keeps_refused s _
  · split
    · exact keeps_refused s _
    · split
      · exact keeps_refused s _
      · split <;> exact keeps_done .untouched _ _

theorem keeps_setLinkTimeout (s : State) (r : Record) : s.Keeps (setLinkTimeout s r).state := by
  unfold setLinkTimeout
  simp only
  split
  · exact keeps_refused s _
  · exact keeps_done .untouched _ _

theorem keeps_setDrain (s : State) (r : Record) : s.Keeps (setDrain s r).state := by
  unfold setDrain
  simp only
  split
  · exact keeps_refused s _
  · exact keeps_done .untouched _ _

theorem keeps_getRetentionRecord (s : State) (r : Record) : s.Keeps (getRetentionRecord s r).state := by
  unfold getRetentionRecord
  split
  · exact keeps_refused s _
  · split
    · exact keeps_refused s _
    · exact keeps_done (keeps_handOut s _) _ _

theorem freeWhere_part (s : State) (f : Partition → Bool) (i : Fin 16) :
    (freeWhere s f).part i = if f (s.part i) then Partition.freed (s.part i).generation else s.part i :=
  tabulate_get _ i

/-- Retained contents resolved: the entries that `f` names become FREE (R22, R164). -/
theorem keeps_resolveRetained (s : State) (f : Partition → Bool) : s.Keeps (resolveRetained (freeWhere s f)) :=
  ⟨rfl, rfl, rfl, rfl, fun i => by
    show (s.part i).Follows ((freeWhere s f).part i)
    rw [freeWhere_part]
    split
    · exact Partition.follows_freed _
    · exact .refl _⟩

theorem keeps_claimRetained (s : State) (r : Record) : s.Keeps (claimRetained s r).state := by
  unfold claimRetained
  split
  · exact keeps_refused s _
  · exact keeps_done (keeps_resolveRetained s _) _ _

theorem keeps_discardRetained (s : State) (r : Record) : s.Keeps (discardRetained s r).state := by
  unfold discardRetained
  split
  · exact keeps_refused s _
  · exact keeps_done (keeps_resolveRetained s _) _ _

theorem answers_freezePartition (s : State) : s.Answers (execFreezePartition s) :=
  answers_takeCommand (fun s _ => keeps_withPartition (keeps_freezePart s)) keeps_settleLink s

theorem answers_releasePartition (s : State) : s.Answers (execReleasePartition s) :=
  answers_takeCommand (fun s _ => keeps_withPartition (keeps_releasePart s)) keeps_settleLink s

theorem answers_clearTorn (s : State) : s.Answers (execClearTorn s) :=
  answers_takeCommand (fun s _ => keeps_withPartition (keeps_clearTornPart s)) keeps_settleLink s

theorem answers_getPartitions (s : State) : s.Answers (execGetPartitions s) :=
  answers_takeCommand keeps_getPartitions keeps_settleLink s

theorem answers_createChannel (s : State) : s.Answers (execCreateChannel s) :=
  answers_takeCommand keeps_createChannel keeps_settleLink s

theorem answers_deleteChannel (s : State) : s.Answers (execDeleteChannel s) :=
  answers_takeCommand (fun s _ => keeps_withChannel (keeps_deleteChan s)) keeps_conclude s

theorem answers_pauseChannel (s : State) : s.Answers (execPauseChannel s) :=
  answers_takeCommand (fun s _ => keeps_withChannel (keeps_pauseChan s)) keeps_settleLink s

theorem answers_resumeChannel (s : State) : s.Answers (execResumeChannel s) :=
  answers_takeCommand (fun s _ => keeps_withChannel (keeps_resumeChan s)) keeps_settleLink s

theorem answers_createCq (s : State) : s.Answers (execCreateCq s) :=
  answers_takeCommand keeps_createCq keeps_settleLink s

theorem answers_deleteCq (s : State) : s.Answers (execDeleteCq s) :=
  answers_takeCommand keeps_deleteCq keeps_settleLink s

theorem answers_setRefresh (s : State) : s.Answers (execSetRefresh s) :=
  answers_takeCommand keeps_setRefresh keeps_settleLink s

theorem answers_setScrub (s : State) : s.Answers (execSetScrub s) :=
  answers_takeCommand keeps_setScrub keeps_settleLink s

theorem answers_getHealth (s : State) : s.Answers (execGetHealth s) :=
  answers_takeCommand keeps_getHealth keeps_settleLink s

theorem answers_clearErrors (s : State) : s.Answers (execClearErrors s) :=
  answers_takeCommand keeps_clearErrors keeps_settleLink s

theorem answers_setMonitor (s : State) : s.Answers (execSetMonitor s) :=
  answers_takeCommand keeps_setMonitor keeps_settleLink s

theorem answers_setLinkTimeout (s : State) : s.Answers (execSetLinkTimeout s) :=
  answers_takeCommand keeps_setLinkTimeout keeps_settleLink s

theorem answers_setDrain (s : State) : s.Answers (execSetDrain s) :=
  answers_takeCommand keeps_setDrain keeps_settleLink s

theorem answers_enterRetention (s : State) : s.Answers (execEnterRetention s) :=
  answers_takeCommand (body := fun s _ => .waits (startDrain s .hostRequest)) (fun s _ => keeps_startDrain s _)
    keeps_conclude s

theorem answers_getRetentionRecord (s : State) : s.Answers (execGetRetentionRecord s) :=
  answers_takeCommand keeps_getRetentionRecord keeps_settleLink s

theorem answers_claimRetained (s : State) : s.Answers (execClaimRetained s) :=
  answers_takeCommand keeps_claimRetained keeps_settleLink s

theorem answers_discardRetained (s : State) : s.Answers (execDiscardRetained s) :=
  answers_takeCommand keeps_discardRetained keeps_settleLink s

theorem answers_unknownCommand (s : State) : s.Answers (execUnknownCommand s) :=
  answers_takeCommand (fun s _ => keeps_refused s _) keeps_settleLink s

/-! ### Register writes -/

theorem keeps_enableStandby (s : State) : s.Keeps (enableStandby s) := by
  unfold enableStandby
  simp only
  split
  · exact State.Keeps.trans .untouched (keeps_conclude _)
  · exact State.Keeps.trans .untouched ((keeps_startDrain _ _).trans (keeps_conclude _))

theorem answers_enable (s : State) : s.Answers (execEnable s) := by
  unfold execEnable
  split
  · exact answers_same s
  · split
    · split
      · exact answers_next (keeps_enableStandby s)
      · exact answers_next (keeps_raise s _)
    · split
      · exact answers_same s
      · split
        · exact answers_next .untouched
        · exact answers_next (keeps_raise s _)
    all_goals exact answers_same s

theorem answers_quiesce (s : State) : s.Answers (execQuiesce s) := by
  exact answers_ite fun _ => State.Keeps.trans .untouched (keeps_conclude _)

theorem keeps_functionReset (s : State) : s.Keeps (functionReset s) := by
  unfold functionReset
  exact State.Keeps.trans .untouched (keeps_stopAllSlots _ _)

theorem answers_functionReset (s : State) : s.Answers (execFunctionReset s) := by
  unfold execFunctionReset
  split
  · exact answers_same s
  · split
    · exact answers_next ((keeps_functionReset s).trans (keeps_conclude _))
    · exact answers_ite fun _ => .untouched

theorem answers_adminRingWrite (field : AdminRingField) (part : AccessPart) (v : BitVec 64) (s : State) :
    s.Answers (execAdminRingWrite field part v s) := answers_ite fun _ => .untouched

theorem keeps_notifyAdminTail (n : Nat) (s : State) : s.Keeps (notifyAdminTail n s) := by
  unfold notifyAdminTail
  split
  · exact State.Keeps.trans .untouched (keeps_settleLink _)
  · exact keeps_raise s _

theorem keeps_notifyChannelTail (c : Fin 16) (n : Nat) (s : State) : s.Keeps (notifyChannelTail c n s) := by
  unfold notifyChannelTail
  split
  · exact keeps_raise s _
  · exact State.Keeps.trans .untouched (keeps_settleLink _)

theorem answers_notifySqTail (ring : BitVec 8) (index : BitVec 16) (s : State) :
    s.Answers (execNotifySqTail ring index s) := by
  unfold execNotifySqTail
  split
  · exact answers_same s
  · split
    · exact answers_next (keeps_notifyAdminTail _ s)
    · split
      · exact answers_next (keeps_raise s _)
      · exact answers_next (keeps_notifyChannelTail _ _ s)

theorem keeps_faultRing (s : State) (r : Fin 9) : s.Keeps (faultRing s r) := by
  have h : s.Keeps (s.setRing r { s.ring r with state := .faulted }) := .untouched
  have hv : ∀ u : State, u.Keeps { u with channels := tabulate 16 fun c => (u.chan c).haltFor r } :=
    fun u => .untouched
  unfold faultRing
  simp only
  split
  · exact h.trans ((keeps_sendVector _ _).trans ((keeps_raise _ _).trans (hv _)))
  · exact h.trans ((keeps_raise _ _).trans (hv _))

theorem keeps_takeHead (s : State) (r : Fin 9) (n : Nat) : s.Keeps (takeHead s r n) := by
  unfold takeHead
  simp only
  split
  · exact .untouched
  · exact keeps_faultRing s r

theorem answers_notifyCqHead (ring : BitVec 8) (index : BitVec 16) (s : State) :
    s.Answers (execNotifyCqHead ring index s) := by
  unfold execNotifyCqHead
  split
  · exact answers_same s
  · split
    · exact answers_next (keeps_raise s _)
    · split
      · exact answers_next ((keeps_takeHead s _ _).trans (keeps_conclude _))
      · exact answers_next (keeps_raise s _)

theorem keeps_takeBeat (s : State) (token : BitVec 8) : s.Keeps (takeBeat s token) := by
  unfold takeBeat
  simp only
  split
  · exact .untouched
  · exact .untouched
  · split
    · exact .untouched
    · split
      · exact State.Keeps.trans .untouched (keeps_raiseAlert _ _)
      · exact .untouched
  · split <;> exact .untouched

theorem answers_heartbeatWrite (v : BitVec 32) (s : State) : s.Answers (execHeartbeatWrite v s) :=
  answers_ite fun _ => keeps_takeBeat s _

theorem answers_eventsWrite (v : BitVec 32) (s : State) : s.Answers (execEventsWrite v s) :=
  answers_ite fun _ => .untouched

theorem answers_messageEnable (e : Bool) (g : VectorsGranted) (s : State) : s.Answers (execMessageEnable e g s) :=
  answers_ite fun _ => .untouched

/-! ### Refresh, self-refresh and timers -/

theorem answers_refresh (s : State) : s.Answers (execRefresh s) := by
  exact answers_ite fun _ => State.Keeps.trans .untouched (keeps_settlePort _)

theorem answers_selfRefreshEntry (s : State) : s.Answers (execSelfRefreshEntry s) := by
  refine answers_ite fun _ => ?_
  unfold entryComplete
  exact State.Keeps.trans .untouched (keeps_raise _ _)

theorem keeps_takeTriggers (s : State) (l : List DrainReason) : s.Keeps (takeTriggers s l) := by
  unfold takeTriggers
  split
  · exact .refl s
  · exact keeps_startDrain s _
  · exact (keeps_startDrain s _).trans .untouched

theorem answers_selfRefreshExit (s : State) : s.Answers (execSelfRefreshExit s) := by
  exact answers_ite fun _ =>
    State.Keeps.trans (t := exitComplete s) .untouched ((keeps_takeTriggers _ _).trans (keeps_conclude _))

theorem keeps_accrue (s : State) : s.Keeps (accrue s) := by
  unfold accrue
  split
  · exact .untouched
  · exact State.Keeps.trans .untouched (keeps_raise _ _)

theorem keeps_intervalExpired (s : State) : s.Keeps (intervalExpired s) := by
  exact (keeps_accrue s).trans (State.Keeps.trans .untouched (keeps_settlePort _))

theorem answers_intervalExpiry (s : State) : s.Answers (execIntervalExpiry s) := by
  unfold execIntervalExpiry
  split
  · exact answers_same s
  · split
    · exact answers_same s
    · exact answers_next ((keeps_elapse s _).trans (keeps_intervalExpired _))

theorem keeps_scrubTicked (s : State) : s.Keeps (scrubTicked s) := by
  unfold scrubTicked
  simp only
  split
  · exact .untouched
  · exact State.Keeps.trans .untouched (keeps_settlePort _)

theorem answers_scrubTick (s : State) : s.Answers (execScrubTick s) := by
  unfold execScrubTick
  split
  · exact answers_same s
  · split
    · exact answers_same s
    · exact answers_next ((keeps_elapse s _).trans (keeps_scrubTicked _))

theorem keeps_delayExpired (s : State) (r : Fin 9) : s.Keeps (delayExpired s r) := by
  unfold delayExpired
  split
  · exact keeps_sendVector s r
  · exact .untouched

theorem answers_delayTimerExpiry (r : Fin 9) (s : State) : s.Answers (execDelayTimerExpiry r s) := by
  unfold execDelayTimerExpiry
  split
  · exact answers_same s
  · split
    · exact answers_same s
    · exact answers_next ((keeps_elapse s _).trans (keeps_delayExpired _ r))

theorem keeps_periodExpired (s : State) : s.Keeps (periodExpired s) := by
  unfold periodExpired
  exact State.Keeps.trans .untouched (keeps_raiseAlert _ _)

theorem answers_periodTimerExpiry (s : State) : s.Answers (execPeriodTimerExpiry s) :=
  answers_ite fun _ => (keeps_elapse s _).trans (keeps_periodExpired _)

theorem keeps_graceExpired (s : State) : s.Keeps (graceExpired s) := by
  unfold graceExpired
  exact State.Keeps.trans .untouched (keeps_trigger _ _)

theorem answers_graceTimerExpiry (s : State) : s.Answers (execGraceTimerExpiry s) :=
  answers_ite fun _ => (keeps_elapse s _).trans ((keeps_graceExpired _).trans (keeps_conclude _))

theorem keeps_deadlineExpired (s : State) : s.Keeps (deadlineExpired s) := by
  unfold deadlineExpired
  split
  · exact keeps_endFlush s _
  · exact .untouched

theorem answers_drainDeadlineExpiry (s : State) : s.Answers (execDrainDeadlineExpiry s) := by
  unfold execDrainDeadlineExpiry
  split
  · exact answers_same s
  · split
    · exact answers_same s
    · exact answers_next ((keeps_elapse s _).trans ((keeps_deadlineExpired _).trans (keeps_conclude _)))

/-! ### Completions -/

theorem keeps_writeFromChannel (s : State) (r : Fin 9) (c : Fin 16) (f : Completion) :
    s.Keeps (writeFromChannel s r c f) := by
  unfold writeFromChannel
  exact State.Keeps.trans .untouched (keeps_writeEntry _ _ _)

theorem keeps_writeFromAdmin (s : State) (f : Completion) : s.Keeps (writeFromAdmin s f) := by
  unfold writeFromAdmin
  exact State.Keeps.trans .untouched (keeps_writeEntry _ _ _)

theorem keeps_writeDrainAdmin (s : State) (f : Completion) : s.Keeps (writeDrainAdmin s f) := by
  unfold writeDrainAdmin
  exact State.Keeps.trans .untouched (keeps_writeEntry _ _ _)

theorem keeps_writeAtWork (s : State) (r : Fin 9) : s.Keeps (writeAtWork s r) := by
  unfold writeAtWork
  split
  · split
    · exact .refl s
    · exact (keeps_writeFromAdmin _ _).trans (keeps_conclude _)
  · split
    · exact .refl s
    · split
      · exact .refl s
      · exact (keeps_writeFromChannel _ _ _ _).trans (keeps_conclude _)

theorem keeps_writeInFlush (s : State) (r : Fin 9) : s.Keeps (writeInFlush s r) := by
  unfold writeInFlush
  split
  · exact .refl s
  · split
    · split
      · exact (keeps_writeDrainAdmin _ _).trans (keeps_conclude _)
      · exact (keeps_writeFromChannel _ _ _ _).trans (keeps_conclude _)
    · exact .refl s

theorem answers_completionWrite (r : Fin 9) (s : State) : s.Answers (execCompletionWrite r s) := by
  unfold execCompletionWrite
  split
  · exact answers_same s
  · split
    · exact answers_next (keeps_writeAtWork s r)
    · exact answers_ite fun _ => keeps_writeInFlush s r

theorem keeps_discardAtWork (s : State) (src : CompletionSource) : s.Keeps (discardAtWork s src) := by
  unfold discardAtWork
  split
  · split
    · exact State.Keeps.trans .untouched (keeps_conclude _)
    · exact .refl s
  · simp only
    split
    · exact State.Keeps.trans .untouched (keeps_conclude _)
    · exact .refl s

theorem keeps_discardInFlush (s : State) (src : CompletionSource) : s.Keeps (discardInFlush s src) := by
  unfold discardInFlush
  split
  · exact .refl s
  · split
    · split
      · exact State.Keeps.trans .untouched (keeps_conclude _)
      · exact State.Keeps.trans .untouched (keeps_conclude _)
    · exact .refl s

theorem answers_completionDiscard (src : CompletionSource) (s : State) : s.Answers (execCompletionDiscard src s) := by
  unfold execCompletionDiscard
  split
  · exact answers_same s
  · split
    · exact answers_next (keeps_discardAtWork s src)
    · exact answers_ite fun _ => keeps_discardInFlush s src

theorem answers_deleteConversion (c : Fin 16) (s : State) : s.Answers (execDeleteConversion c s) := by
  exact answers_ite fun _ => State.Keeps.trans .untouched (keeps_conclude _)

/-! ### Descriptors -/

theorem keeps_scheduleChoice (s : State) (k : Fin 4) (c : Fin 16) (turn : Turn) :
    s.Keeps (scheduleChoice s k c turn) := by
  unfold scheduleChoice
  split
  · exact .refl s
  · exact State.Keeps.trans .untouched (keeps_checkFields _ _)

theorem answers_slotSchedulerChoice (s : State) : s.Answers (execSlotSchedulerChoice s) := by
  unfold execSlotSchedulerChoice
  split
  · exact answers_same s
  · split
    · exact answers_next ((keeps_scheduleChoice s _ _ _).trans (keeps_conclude _))
    · exact answers_same s

theorem answers_presentation (k : Fin 4) (s : State) : s.Answers (execPresentation k s) := by
  unfold execPresentation
  simp only
  split
  · exact answers_same s
  · split
    · exact answers_same s
    · split
      · exact answers_next ((keeps_refuseSlot s k _).trans (keeps_conclude _))
      · exact answers_next ((keeps_enterRun ‹_›).trans (keeps_conclude _))

theorem keeps_readBurstEnd (s : State) (k : Fin 4) (o : SlotOp) (fs : List Finding) :
    s.Keeps (readBurstEnd s k o fs) := by
  unfold readBurstEnd
  refine State.Keeps.trans (t := releasePort s) ?_
    ((keeps_readTaken _ _ _ _ _).trans ((keeps_advanceSlot _ _).trans ((keeps_reportFindings _ _).trans
      (keeps_conclude _))))
  exact .untouched

theorem keeps_writeBurstEnd (s : State) (k : Fin 4) (o : SlotOp) :
    State.Keeps { s with mem := Memory.writeBytes s.mem o.addr (opData (s.slot k) o) } (writeBurstEnd s k o) := by
  have hr : ∀ (u : State) (ls : List Nat), u.Keeps (removeLines u ls) := fun u ls => .untouched
  unfold writeBurstEnd
  exact State.Keeps.trans .untouched ((keeps_advanceSlot _ _).trans ((hr _ _).trans (keeps_conclude _)))

theorem keeps_rmwWritten (s : State) (k : Fin 4) (o : SlotOp) (w : Nat × Finding) :
    State.Keeps
      { s with
        mem := Memory.writeBytes s.mem w.1 (mergedWord (wordBytes s.mem w) (opData (s.slot k) o) (o.addr % 8)) }
      (rmwWritten s k o w) := by
  unfold rmwWritten
  exact State.Keeps.trans .untouched
    ((keeps_advanceSlot _ _).trans ((keeps_reportFindings _ _).trans (keeps_conclude _)))

theorem keeps_rmwFailed (s : State) (k : Fin 4) (o : SlotOp) (w : Nat × Finding) : s.Keeps (rmwFailed s k o w) := by
  unfold rmwFailed
  exact State.Keeps.trans .untouched
    ((keeps_advanceSlot _ _).trans ((keeps_reportFindings _ _).trans (keeps_conclude _)))

/-- A scrub line writes its line back, or nothing (R107). -/
theorem keeps_scrubLineEnd (s : State) (fs : List Finding) :
    ∃ a bs, State.Keeps { s with mem := Memory.writeBytes s.mem a bs } (scrubLineEnd s fs) := by
  unfold scrubLineEnd
  simp only
  split
  · refine ⟨s.scrub.pointer,
      (pairFindings (wordAddresses s.scrub.pointer 64) (fs.take 8)).flatMap (wordBytes s.mem),
      State.Keeps.trans ?_ ((keeps_reportFindings _ _).trans (keeps_settlePort _))⟩
    exact .untouched
  · exact ⟨0, [], State.Keeps.trans .untouched ((keeps_reportFindings _ _).trans (keeps_settlePort _))⟩

/-! ### The link -/

theorem keeps_linkLost (s : State) : s.Keeps (linkLost s) := by
  unfold linkLost
  exact State.Keeps.trans .untouched (keeps_failAllTags _)

theorem keeps_linkDownTaken (s : State) : s.Keeps (linkDownTaken s) := by
  unfold linkDownTaken
  split
  · exact keeps_startDrain s _
  · split
    · exact keeps_endFlush s _
    · exact .refl s

theorem answers_linkDown (s : State) : s.Answers (execLinkDown s) :=
  answers_ite fun _ => (keeps_linkLost s).trans ((keeps_linkDownTaken _).trans (keeps_conclude _))

theorem answers_linkUp (s : State) : s.Answers (execLinkUp s) := by
  exact answers_ite fun _ => State.Keeps.trans .untouched (keeps_settleLink _)

theorem keeps_linkCleared (s : State) : s.Keeps (linkCleared s) := by
  unfold linkCleared
  exact State.Keeps.trans .untouched (keeps_failAllTags _)

theorem keeps_linkResetTaken (s : State) : s.Keeps (linkResetTaken s) := by
  unfold linkResetTaken
  split
  · exact keeps_startDrain s _
  · split
    · exact .untouched
    · exact .refl s

theorem answers_linkReset (s : State) : s.Answers (execLinkReset s) :=
  answers_ite fun _ => (keeps_linkCleared s).trans ((keeps_linkResetTaken _).trans (keeps_conclude _))

theorem keeps_readCompletes (s : State) (g : Fin 16) (bs : List Byte) : s.Keeps (readCompletes s g bs) :=
  (keeps_setTag s g _).trans ((keeps_readDone _ _ _).trans (keeps_conclude _))

theorem answers_hostReadData (g : Fin 16) (bs : List Byte) (s : State) : s.Answers (execHostReadData g bs s) := by
  unfold execHostReadData
  simp only
  split
  · exact answers_same s
  · split
    · exact answers_next (keeps_setTag s g _)
    · exact answers_next (keeps_readCompletes s g _)

theorem answers_readErrorReturn (g : Fin 16) (s : State) : s.Answers (execReadErrorReturn g s) := by
  unfold execReadErrorReturn
  split
  · exact answers_same s
  · exact answers_next ((keeps_setTag s g _).trans ((keeps_readFailed _ _).trans (keeps_conclude _)))

theorem keeps_readTimesOut (s : State) (g : Fin 16) : s.Keeps (readTimesOut s g) :=
  (keeps_setTag s g _).trans ((keeps_readFailed _ _).trans (keeps_conclude _))

theorem answers_linkReadTimeout (g : Fin 16) (s : State) : s.Answers (execLinkReadTimeout g s) := by
  unfold execLinkReadTimeout
  split
  · exact answers_same s
  · exact answers_next ((keeps_elapse s _).trans (keeps_readTimesOut _ g))

theorem answers_quarantineEnd (g : Fin 16) (s : State) : s.Answers (execQuarantineEnd g s) := by
  unfold execQuarantineEnd
  split
  · exact answers_same s
  · exact answers_next ((keeps_elapse s _).trans ((keeps_setTag _ g _).trans (keeps_settleLink _)))

/-! ### Power -/

theorem answers_memoryInitialisation (success : Bool) (s : State) :
    s.Answers (execMemoryInitialisation success s) := by
  have h : s.Keeps (arrayReady s) := .untouched
  unfold execMemoryInitialisation
  split
  · split
    · refine answers_next (State.Keeps.trans ?_ (keeps_conclude _))
      split
      · exact h.trans (keeps_settleStandby _)
      · exact h
    · exact answers_next .untouched
  · exact answers_same s

theorem answers_warmStart (s : State) : s.Answers (execWarmStart s) := answers_ite fun _ => .untouched

theorem answers_coreLogicPowerDown (s : State) : s.Answers (execCoreLogicPowerDown s) :=
  answers_ite fun _ => .untouched

theorem answers_pwrWarnAsserted (s : State) : s.Answers (execPwrWarnAsserted s) := by
  have h : s.Keeps { s with power := { s.power with pwrWarn := true } } := .untouched
  unfold execPwrWarnAsserted
  simp only
  split
  · exact answers_same s
  · split
    · exact answers_next h
    · split
      · exact answers_next (h.trans ((keeps_startDrain _ _).trans (keeps_conclude _)))
      · split
        · exact answers_next (h.trans ((keeps_settleStandby _).trans (keeps_conclude _)))
        · exact answers_next h

theorem answers_mainPowerLoss (s : State) : s.Answers (execMainPowerLoss s) :=
  answers_ite fun _ => .untouched

theorem answers_backupSupplyFailure (s : State) : s.Answers (execBackupSupplyFailure s) :=
  answers_ite fun _ => .untouched

end Sys2Proof.Machine
end

section
/-! SUPPORT. What any command can do, in one statement (`exec_answers`), and the statements that follow from it: the laws
of buffer memory and of the Partition Table, and the rules of the whole machine. -/

-- One theorem at a time, as in the tests above: fewer threads than the memory limit allows.
set_option Elab.async false

namespace Sys2Proof.Machine

/-! ### Every command -/

/-- Entry `i` is FREE and takes the value `p`, OPEN with a range inside the capacity that no entry in use meets, and the
next generation (R12, R13). -/
structure State.Defines (s : State) (i : Fin 16) (p : Partition) : Prop where
  free       : (s.part i).state = .free
  opened     : p.state = .opened
  generation : p.generation = (s.part i).generation + 1
  nonempty   : 1 ≤ p.length
  inside     : p.base + p.length ≤ s.capacity.units
  disjoint   : overlapsDefined s p.base p.length = false

/-- DEFINE_PARTITION refuses, with the table as it was, or defines its entry (R12, R13). -/
theorem definePart_cases (s : State) (r : Record) (i : Fin 16) :
    (∃ st, definePart s r i = .refused s st) ∨
      ∃ p, s.Defines i p ∧ definePart s r i = .done (s.setPart i p) .ok 0 := by
  unfold definePart
  simp only
  split
  · exact .inl ⟨_, rfl⟩
  · split
    · exact .inl ⟨_, rfl⟩
    · split
      · exact .inl ⟨_, rfl⟩
      · split
        · exact .inl ⟨_, rfl⟩
        · split
          · exact .inl ⟨_, rfl⟩
          · rename_i hlen hfree hin hmeet
            exact .inr ⟨_, ⟨not_not.mp hfree, rfl, rfl, Nat.one_le_iff_ne_zero.mpr hlen, not_lt.mp hin,
              Bool.not_eq_true _ ▸ hmeet⟩, rfl⟩

theorem settleLink_partitions (s : State) : (settleLink s).partitions = s.partitions :=
  (besideGrants_of_besideTags (besideTags_settleLink s)).2.2.1

theorem handOverAdmin_partitions (s : State) (st : Status) (v : Word32) :
    (s.handOverAdmin st v).partitions = s.partitions := by
  obtain ⟨a, h⟩ := handOverAdmin_eq s st v
  rw [h]

/-- What command `i` can leave: what it found, but for bytes stored; all at power-on values; or one entry defined. -/
inductive State.MayBecome (s : State) : Instr → State → Prop
  | stored {i : Instr} {t : State} (a : Nat) (bs : List Byte)
      (h : State.Keeps { s with mem := Memory.writeBytes s.mem a bs } t) : s.MayBecome i t
  | poweredOn : s.MayBecome .powerOn (poweredOn s)
  | defined {t : State} {j : Fin 16} {p : Partition} (hd : s.Defines j p) (h : (s.setPart j p).Keeps t)
      (ht : t.partitions = (s.setPart j p).partitions) : s.MayBecome .definePartition t

/-- A command that stores nothing. -/
theorem mayBecome_of_keeps {s t : State} {i : Instr} (h : s.Keeps t) : s.MayBecome i t := .stored 0 [] h

theorem mayBecome_of_answers {s : State} {i : Instr} {o : Out} (h : s.Answers o) :
    ∃ t, o = .next t ∧ s.MayBecome i t := by
  obtain ⟨t, ho, hk⟩ := h
  exact ⟨t, ho, mayBecome_of_keeps hk⟩

theorem powerOn_mayBecome (s : State) : ∃ t, execPowerOn s = .next t ∧ s.MayBecome .powerOn t := by
  unfold execPowerOn
  split
  · exact ⟨_, rfl, .poweredOn⟩
  · exact ⟨_, rfl, mayBecome_of_keeps (.refl s)⟩

theorem definePartition_mayBecome (s : State) :
    ∃ t, execDefinePartition s = .next t ∧ s.MayBecome .definePartition t := by
  unfold execDefinePartition takeCommand
  split
  · exact ⟨_, rfl, mayBecome_of_keeps (.refl s)⟩
  · rename_i f rest _
    split
    · refine ⟨_, rfl, ?_⟩
      have hb := keeps_beginCommand s f rest
      have hrefused : ∀ st,
          s.MayBecome .definePartition (settleLink (Taken.refused (beginCommand s f rest) st).state) :=
        fun st => mayBecome_of_keeps (hb.trans ((keeps_refused _ st).trans (keeps_settleLink _)))
      simp only [withPartition]
      split
      · exact hrefused _
      · split
        · exact hrefused _
        · rename_i j _
          obtain ⟨st, h⟩ | ⟨p, hd, h⟩ := definePart_cases (beginCommand s f rest) f.entry j
          · rw [h]; exact hrefused st
          · rw [h]
            refine .defined (j := j) (p := p) ⟨hd.free, hd.opened, hd.generation, hd.nonempty, hd.inside, hd.disjoint⟩
              (State.Keeps.trans .untouched ((keeps_done (.refl _) _ _).trans (keeps_settleLink _))) ?_
            rw [settleLink_partitions]
            exact handOverAdmin_partitions _ _ _
    · exact ⟨_, rfl, mayBecome_of_keeps (.refl s)⟩

/-- A port operation past the capacity stops the machine (log entry 11). -/
theorem exec_pastCapacity {i : Instr} {s : State} (h : s.pastCapacity i) : exec i s = .fault .beyondCapacity := by
  cases i with
  | readBurst fs =>
    obtain ⟨hc, k, o, ho, hw⟩ := h
    simp [exec, execReadBurst, hc, ho, hw]
  | writeBurst =>
    obtain ⟨hc, k, o, ho, hw⟩ := h
    simp [exec, execWriteBurst, hc, ho, hw]
  | readModifyWrite f =>
    obtain ⟨hc, k, o, ho, hw⟩ := h
    simp [exec, execReadModifyWrite, hc, ho, hw]
  | scrubLine fs =>
    obtain ⟨hc, hp, hw⟩ := h
    have hn : ¬ s.scrub.pointer + 64 ≤ s.capacity.bytes := Nat.not_le.mpr hw
    simp [exec, execScrubLine, hc, hp, hn]
  | _ => exact absurd h id

theorem readBurst_mayBecome {s : State} {fs : List Finding} (h : ¬s.pastCapacity (.readBurst fs)) :
    ∃ t, execReadBurst fs s = .next t ∧ s.MayBecome (.readBurst fs) t := by
  unfold execReadBurst
  split
  · exact ⟨_, rfl, mayBecome_of_keeps (.refl s)⟩
  · rename_i hc
    split
    · exact ⟨_, rfl, mayBecome_of_keeps (.refl s)⟩
    · rename_i k o ho
      split
      · exact ⟨_, rfl, mayBecome_of_keeps (keeps_readBurstEnd s k o fs)⟩
      · rename_i hw
        exact absurd ⟨by simpa using hc, k, o, ho, by simpa using hw⟩ h

theorem writeBurst_mayBecome {s : State} (h : ¬s.pastCapacity .writeBurst) :
    ∃ t, execWriteBurst s = .next t ∧ s.MayBecome .writeBurst t := by
  unfold execWriteBurst
  split
  · exact ⟨_, rfl, mayBecome_of_keeps (.refl s)⟩
  · rename_i hc
    split
    · exact ⟨_, rfl, mayBecome_of_keeps (.refl s)⟩
    · rename_i k o ho
      split
      · exact ⟨_, rfl, .stored _ _ (keeps_writeBurstEnd s k o)⟩
      · rename_i hw
        exact absurd ⟨by simpa using hc, k, o, ho, by simpa using hw⟩ h

theorem readModifyWrite_mayBecome {s : State} {f : Finding} (h : ¬s.pastCapacity (.readModifyWrite f)) :
    ∃ t, execReadModifyWrite f s = .next t ∧ s.MayBecome (.readModifyWrite f) t := by
  unfold execReadModifyWrite
  split
  · exact ⟨_, rfl, mayBecome_of_keeps (.refl s)⟩
  · rename_i hc
    split
    · exact ⟨_, rfl, mayBecome_of_keeps (.refl s)⟩
    · rename_i k o ho
      split
      · simp only
        split
        · exact ⟨_, rfl, mayBecome_of_keeps (keeps_rmwFailed s k o _)⟩
        · exact ⟨_, rfl, .stored _ _ (keeps_rmwWritten s k o _)⟩
      · rename_i hw
        exact absurd ⟨by simpa using hc, k, o, ho, by simpa using hw⟩ h

theorem scrubLine_mayBecome {s : State} {fs : List Finding} (h : ¬s.pastCapacity (.scrubLine fs)) :
    ∃ t, execScrubLine fs s = .next t ∧ s.MayBecome (.scrubLine fs) t := by
  unfold execScrubLine
  split
  · rename_i hc
    split
    · obtain ⟨a, bs, hk⟩ := keeps_scrubLineEnd s fs
      exact ⟨_, rfl, .stored a bs hk⟩
    · rename_i hw
      exact absurd ⟨hc.1, hc.2, Nat.not_le.mp hw⟩ h
  · exact ⟨_, rfl, mayBecome_of_keeps (.refl s)⟩

/-- Every command but a port operation past the capacity answers a next state, and this is what it can be. -/
theorem exec_answers {i : Instr} {s : State} (h : ¬s.pastCapacity i) : ∃ t, exec i s = .next t ∧ s.MayBecome i t := by
  cases i with
  | powerOn => exact powerOn_mayBecome s
  | definePartition => exact definePartition_mayBecome s
  | readBurst fs => exact readBurst_mayBecome h
  | writeBurst => exact writeBurst_mayBecome h
  | readModifyWrite f => exact readModifyWrite_mayBecome h
  | scrubLine fs => exact scrubLine_mayBecome h
  | memoryInitialisation success => exact mayBecome_of_answers (answers_memoryInitialisation success s)
  | warmStart => exact mayBecome_of_answers (answers_warmStart s)
  | coreLogicPowerDown => exact mayBecome_of_answers (answers_coreLogicPowerDown s)
  | pwrWarnAsserted => exact mayBecome_of_answers (answers_pwrWarnAsserted s)
  | pwrWarnDeasserted => exact mayBecome_of_answers (answers_next .untouched)
  | mainPowerLoss => exact mayBecome_of_answers (answers_mainPowerLoss s)
  | mainPowerReturn => exact mayBecome_of_answers (answers_next .untouched)
  | backupSupplyFailure => exact mayBecome_of_answers (answers_backupSupplyFailure s)
  | linkDown => exact mayBecome_of_answers (answers_linkDown s)
  | linkUp => exact mayBecome_of_answers (answers_linkUp s)
  | linkReset => exact mayBecome_of_answers (answers_linkReset s)
  | hostReadData g bs => exact mayBecome_of_answers (answers_hostReadData g bs s)
  | readErrorReturn g => exact mayBecome_of_answers (answers_readErrorReturn g s)
  | linkReadTimeout g => exact mayBecome_of_answers (answers_linkReadTimeout g s)
  | quarantineEnd g => exact mayBecome_of_answers (answers_quarantineEnd g s)
  | messageEnable e g => exact mayBecome_of_answers (answers_messageEnable e g s)
  | enable => exact mayBecome_of_answers (answers_enable s)
  | quiesce => exact mayBecome_of_answers (answers_quiesce s)
  | functionReset => exact mayBecome_of_answers (answers_functionReset s)
  | adminRingWrite f p v => exact mayBecome_of_answers (answers_adminRingWrite f p v s)
  | notifySqTail r n => exact mayBecome_of_answers (answers_notifySqTail r n s)
  | notifyCqHead r n => exact mayBecome_of_answers (answers_notifyCqHead r n s)
  | heartbeatWrite v => exact mayBecome_of_answers (answers_heartbeatWrite v s)
  | eventsWrite v => exact mayBecome_of_answers (answers_eventsWrite v s)
  | registerWriteIgnored o w v => exact mayBecome_of_answers (answers_same s)
  | freezePartition => exact mayBecome_of_answers (answers_freezePartition s)
  | releasePartition => exact mayBecome_of_answers (answers_releasePartition s)
  | clearTorn => exact mayBecome_of_answers (answers_clearTorn s)
  | getPartitions => exact mayBecome_of_answers (answers_getPartitions s)
  | createChannel => exact mayBecome_of_answers (answers_createChannel s)
  | deleteChannel => exact mayBecome_of_answers (answers_deleteChannel s)
  | pauseChannel => exact mayBecome_of_answers (answers_pauseChannel s)
  | resumeChannel => exact mayBecome_of_answers (answers_resumeChannel s)
  | createCq => exact mayBecome_of_answers (answers_createCq s)
  | deleteCq => exact mayBecome_of_answers (answers_deleteCq s)
  | setRefresh => exact mayBecome_of_answers (answers_setRefresh s)
  | setScrub => exact mayBecome_of_answers (answers_setScrub s)
  | getHealth => exact mayBecome_of_answers (answers_getHealth s)
  | clearErrors => exact mayBecome_of_answers (answers_clearErrors s)
  | setMonitor => exact mayBecome_of_answers (answers_setMonitor s)
  | setLinkTimeout => exact mayBecome_of_answers (answers_setLinkTimeout s)
  | setDrain => exact mayBecome_of_answers (answers_setDrain s)
  | enterRetention => exact mayBecome_of_answers (answers_enterRetention s)
  | getRetentionRecord => exact mayBecome_of_answers (answers_getRetentionRecord s)
  | claimRetained => exact mayBecome_of_answers (answers_claimRetained s)
  | discardRetained => exact mayBecome_of_answers (answers_discardRetained s)
  | unknownCommand => exact mayBecome_of_answers (answers_unknownCommand s)
  | slotSchedulerChoice => exact mayBecome_of_answers (answers_slotSchedulerChoice s)
  | presentation k => exact mayBecome_of_answers (answers_presentation k s)
  | refresh => exact mayBecome_of_answers (answers_refresh s)
  | selfRefreshEntry => exact mayBecome_of_answers (answers_selfRefreshEntry s)
  | selfRefreshExit => exact mayBecome_of_answers (answers_selfRefreshExit s)
  | intervalExpiry => exact mayBecome_of_answers (answers_intervalExpiry s)
  | scrubTick => exact mayBecome_of_answers (answers_scrubTick s)
  | delayTimerExpiry r => exact mayBecome_of_answers (answers_delayTimerExpiry r s)
  | periodTimerExpiry => exact mayBecome_of_answers (answers_periodTimerExpiry s)
  | graceTimerExpiry => exact mayBecome_of_answers (answers_graceTimerExpiry s)
  | drainDeadlineExpiry => exact mayBecome_of_answers (answers_drainDeadlineExpiry s)
  | completionWrite r => exact mayBecome_of_answers (answers_completionWrite r s)
  | completionDiscard src => exact mayBecome_of_answers (answers_completionDiscard src s)
  | deleteConversion c => exact mayBecome_of_answers (answers_deleteConversion c s)

/-- What a command that answers a next state can have left. -/
theorem exec_mayBecome {i : Instr} {s t : State} (h : exec i s = .next t) : s.MayBecome i t := by
  have hp : ¬s.pastCapacity i := fun hp => by rw [exec_pastCapacity hp] at h; cases h
  obtain ⟨t', ht, hm⟩ := exec_answers hp
  rw [ht] at h
  cases h
  exact hm

/-- A step is the idle step, or the command at the front of the queue. -/
theorem step_cases {s t : State} (h : step s = .next t) :
    t = s.idleTick ∨ ∃ i rest, State.MayBecome { s with pending := rest } i t := by
  unfold step at h
  split at h
  · cases h; exact .inl rfl
  · exact .inr ⟨_, _, exec_mayBecome h⟩

/-! ### The laws -/

theorem idleTick_table (s : State) :
    s.idleTick.mem = s.mem ∧ s.idleTick.partitions = s.partitions ∧ s.idleTick.capacity = s.capacity := by
  unfold State.idleTick
  split <;> exact ⟨rfl, rfl, rfl⟩

theorem memoryLaw_of_mayBecome {s t : State} {i : Instr} (hs : s.MemoryLaw) (h : s.MayBecome i t) : t.MemoryLaw := by
  cases h with
  | stored a bs hk => rw [State.MemoryLaw, hk.mem]; exact wf_writeBytes hs a bs
  | poweredOn => rfl
  | defined _ hk _ => rw [State.MemoryLaw, hk.mem]; exact hs

/-- Entries that follow from entries under the law are under the law. -/
theorem partitionLaw_of_keeps {s t : State} (hs : s.PartitionLaw) (h : s.Keeps t) : t.PartitionLaw := by
  obtain ⟨hdisj, hin, hfree⟩ := hs
  have hused : ∀ i, (t.part i).state ≠ .free →
      (s.part i).state ≠ .free ∧ (t.part i).base = (s.part i).base ∧ (t.part i).length = (s.part i).length := by
    intro i hi
    obtain ⟨-, ⟨hc, -⟩ | ⟨hst, hb, hl, -⟩⟩ := h.parts i
    · exact absurd hc hi
    · exact ⟨fun e => hi (hst.mpr e), hb, hl⟩
  refine ⟨fun i j hij hi hj => ?_, fun i hi => ?_, fun i hi => ?_⟩
  · obtain ⟨hi', hbi, hli⟩ := hused i hi
    obtain ⟨hj', hbj, hlj⟩ := hused j hj
    rw [hbi, hli, hbj, hlj]
    exact hdisj i j hij hi' hj'
  · obtain ⟨hi', hbi, hli⟩ := hused i hi
    rw [hbi, hli, h.capacity]
    exact hin i hi'
  · obtain ⟨-, ⟨-, hc⟩ | ⟨hst, hb, hl, hz⟩⟩ := h.parts i
    · exact hc
    · have hf := hst.mp hi
      obtain ⟨fb, fl, fr, fw⟩ := hfree i hf
      exact ⟨hb.trans fb, hl.trans fl, hz hf fr fw⟩

theorem overlapsDefined_eq_false {s : State} {base len : Nat} (h : overlapsDefined s base len = false) {j : Fin 16}
    (hj : (s.part j).state ≠ .free) :
    (s.part j).base + (s.part j).length ≤ base ∨ base + len ≤ (s.part j).base := by
  simp only [overlapsDefined, List.any_eq_false, allChannels, List.mem_finRange, true_implies] at h
  have hm := h j
  simp only [unitsMeet, Bool.and_eq_true, bne_iff_ne, ne_eq, decide_eq_true_eq, not_and, not_lt] at hm
  have := hm hj
  omega

/-- A defined entry joins the table under the law (R12, R13). -/
theorem partitionLaw_of_defines {s : State} {i : Fin 16} {p : Partition} (hs : s.PartitionLaw) (hd : s.Defines i p) :
    (s.setPart i p).PartitionLaw := by
  obtain ⟨hdisj, hin, hfree⟩ := hs
  have hopen : p.state ≠ .free := by simp [hd.opened]
  refine ⟨fun j k hjk hj hk => ?_, fun j hj => ?_, fun j hj => ?_⟩
  · rw [State.setPart_part] at hj hk ⊢
    rw [State.setPart_part]
    by_cases hji : j = i
    · have hki : k ≠ i := fun e => hjk (hji.trans e.symm)
      rw [if_neg hki] at hk
      rw [if_pos hji, if_neg hki]
      exact (overlapsDefined_eq_false hd.disjoint hk).symm
    · rw [if_neg hji] at hj
      by_cases hki : k = i
      · rw [if_neg hji, if_pos hki]
        exact overlapsDefined_eq_false hd.disjoint hj
      · rw [if_neg hki] at hk
        rw [if_neg hji, if_neg hki]
        exact hdisj j k hjk hj hk
  · rw [State.setPart_part] at hj ⊢
    split
    · exact ⟨hd.nonempty, hd.inside⟩
    · rename_i hji
      rw [if_neg hji] at hj
      exact hin j hj
  · rw [State.setPart_part] at hj ⊢
    split
    · rename_i hji
      rw [if_pos hji] at hj
      exact absurd hj hopen
    · rename_i hji
      rw [if_neg hji] at hj
      exact hfree j hj

theorem poweredOn_part (s : State) (i : Fin 16) : (poweredOn s).part i = Partition.freed 0 := get_replicate _ i

theorem partitionLaw_poweredOn (s : State) : (poweredOn s).PartitionLaw := by
  refine ⟨fun i j _ hi => ?_, fun i hi => ?_, fun i _ => ?_⟩
  · rw [poweredOn_part] at hi; exact absurd rfl hi
  · rw [poweredOn_part] at hi; exact absurd rfl hi
  · rw [poweredOn_part]; exact ⟨rfl, rfl, rfl, rfl⟩

theorem partitionLaw_of_mayBecome {s t : State} {i : Instr} (hs : s.PartitionLaw) (h : s.MayBecome i t) :
    t.PartitionLaw := by
  cases h with
  | stored a bs hk => exact partitionLaw_of_keeps (s := { s with mem := Memory.writeBytes s.mem a bs }) hs hk
  | poweredOn => exact partitionLaw_poweredOn s
  | defined hd hk _ => exact partitionLaw_of_keeps (partitionLaw_of_defines hs hd) hk

/-- Settles O5: a step stores bytes, which keeps the canonical form, or leaves memory, or empties it. -/
theorem memoryLawKept : Obligations.MemoryLawKept := by
  intro s t hs h
  obtain rfl | ⟨i, rest, hm⟩ := step_cases h
  · rw [State.MemoryLaw, (idleTick_table s).1]; exact hs
  · exact memoryLaw_of_mayBecome (s := { s with pending := rest }) hs hm

/-- Settles O9: entries change only as `Partition.Follows` says, or by a definition that passed its checks. -/
theorem partitionLawKept : Obligations.PartitionLawKept := by
  intro s t hs h
  obtain rfl | ⟨i, rest, hm⟩ := step_cases h
  · obtain ⟨-, hp, hc⟩ := idleTick_table s
    simpa only [State.PartitionLaw, State.part, hp, hc] using hs
  · exact partitionLaw_of_mayBecome (s := { s with pending := rest }) hs hm

/-! ### Rules of the whole machine -/

/-- The queue of commands, the capacity and what the host has received stay at every command. -/
theorem mayBecome_frame {s t : State} {i : Instr} (h : s.MayBecome i t) :
    t.pending = s.pending ∧ t.capacity = s.capacity ∧ t.link.delivered = s.link.delivered := by
  cases h with
  | stored a bs hk => exact ⟨hk.pending, hk.capacity, hk.delivered⟩
  | poweredOn => exact ⟨rfl, rfl, rfl⟩
  | defined _ hk _ => exact ⟨hk.pending, hk.capacity, hk.delivered⟩

/-- Settles O2. -/
theorem everyCommandAnswers : Obligations.EveryCommandAnswers := by
  intro i s
  refine ⟨exec_pastCapacity, fun hp => ?_⟩
  obtain ⟨t, ht, hm⟩ := exec_answers hp
  exact ⟨t, ht, mayBecome_frame hm⟩

/-- Settles O15. -/
theorem generationAdvancesOnlyByDefine : Obligations.GenerationAdvancesOnlyByDefine := by
  intro i s t j h
  have hm := exec_mayBecome h
  cases hm with
  | stored a bs hk => exact .inl (hk.parts j).1
  | poweredOn => exact .inr (.inl ⟨rfl, by rw [poweredOn_part]; rfl⟩)
  | @defined _ l p hd _ ht =>
    have hj : t.part j = if j = l then p else s.part j := by
      rw [← State.setPart_part, State.part, ht]; rfl
    by_cases e : j = l
    · subst e
      rw [if_pos rfl] at hj
      rw [hj]
      exact .inr (.inr ⟨rfl, hd.free, hd.opened, hd.generation⟩)
    · rw [if_neg e] at hj
      exact .inl (by rw [hj])

end Sys2Proof.Machine
end

section
/-! SUPPORT. Power-on values and laws; and a state that refutes the step lemma of the reference law. -/

-- One theorem at a time, as in the tests above: fewer threads than the memory limit allows.
set_option Elab.async false

namespace Sys2Proof.Machine

/-! ### Power-on -/

theorem reset_part (i : Fin 16) : State.reset.part i = Partition.freed 0 := get_replicate _ i
theorem reset_chan (c : Fin 16) : State.reset.chan c = Channel.none := get_replicate _ c
theorem reset_fetchOf (c : Fin 16) : State.reset.fetchOf c = .empty := get_replicate _ c
theorem reset_slot (k : Fin 4) : State.reset.slot k = Slot.none := get_replicate _ k
theorem reset_ring (r : Fin 9) : State.reset.ring r = Ring.none := get_replicate _ r

theorem reset_tag (g : Fin 16) : State.reset.tag g = Tag.none := get_replicate _ g

/-- Settles O3: tables entry by entry, and every other value by computation. -/
theorem resetValues : Obligations.ResetValues := by
  refine ⟨by decide, reset_part, fun c => ?_, by decide, fun k => ?_, fun q => ?_, by decide, by decide, by decide,
    by decide, by decide, by decide, by decide, by decide, ⟨rfl, fun g => ?_, fun k => get_replicate _ k, ?_⟩, rfl⟩
  · rw [reset_chan, reset_fetchOf]; exact ⟨rfl, rfl⟩
  · rw [reset_slot]; exact ⟨rfl, rfl, rfl⟩
  · rw [reset_ring]; exact ⟨rfl, rfl⟩
  · rw [reset_tag]; rfl
  · decide

theorem reset_healthLaw : State.reset.HealthLaw := by
  unfold State.HealthLaw
  decide

theorem reset_ringLaw : State.reset.RingLaw := fun r => by rw [reset_ring]; exact le_rfl

theorem reset_refreshLaw : State.reset.RefreshLaw := by
  refine ⟨by decide, fun p hp => ?_, fun _ => ⟨rfl, rfl⟩, fun h => ?_⟩
  · cases hp
  · cases h

theorem reset_partitionLaw : State.reset.PartitionLaw := by
  refine ⟨fun i j _ hi => ?_, fun i hi => ?_, fun i _ => ?_⟩
  · rw [reset_part] at hi; exact absurd rfl hi
  · rw [reset_part] at hi; exact absurd rfl hi
  · rw [reset_part]; exact ⟨rfl, rfl, rfl, rfl⟩

theorem reset_retainedLaw : State.reset.RetainedLaw := by
  refine ⟨fun _ => ⟨fun c => by rw [reset_chan]; rfl, fun r => by rw [reset_ring]; rfl⟩,
    fun _ k => by rw [reset_slot]; rfl, fun h => ?_, fun h => ?_, fun h => ?_, fun h => ?_⟩ <;> cases h

theorem reset_monitorLaw : State.reset.MonitorLaw := by
  unfold State.MonitorLaw
  decide

theorem reset_channelLaw : State.reset.ChannelLaw := by
  refine ⟨fun c => ?_, fun k hk => ?_⟩
  · rw [reset_chan, reset_fetchOf]
    refine ⟨Nat.zero_le _, Nat.zero_le _, fun n hn => ?_, fun hs => absurd rfl hs, fun _ => ⟨rfl, fun n hn => ?_⟩⟩
    · cases hn
    · cases hn
  · exact absurd (by rw [reset_slot]; rfl) hk.1

theorem reset_referenceLaw : State.reset.ReferenceLaw := by
  have hr : ∀ i k, State.reset.refsOf i k = 0 := fun i k => by
    rw [State.refsOf, reset_slot]; simp [Slot.none]
  have hw : ∀ i k, State.reset.writeRefsOf i k = 0 := fun i k => by
    rw [State.writeRefsOf, reset_slot]; simp [Slot.none]
  refine ⟨fun i => ?_, fun k _ => by rw [reset_slot]; rfl, fun h => ?_⟩
  · rw [reset_part, funext (hr i), funext (hw i)]
    exact ⟨by decide, by decide⟩
  · cases h

theorem reset_entryLaw : State.reset.EntryLaw := fun h => by cases h

/-- Settles O4. -/
theorem lawsHoldAtReset : Obligations.LawsHoldAtReset :=
  ⟨reset_memory, reset_healthLaw, reset_ringLaw, reset_refreshLaw, reset_partitionLaw, reset_retainedLaw,
    reset_monitorLaw, reset_channelLaw, reset_referenceLaw, reset_entryLaw⟩

/-! ### The reference law is not kept from every state it admits

The law says of an IDLE slot that it holds no reference, but not that it has no port operation under way. In a state with
retained contents pending and slot 0 IDLE, with a read burst in progress and a piece in hand, that burst found
uncorrectable puts the slot into ENDING (R66), where the law asks for every slot to be IDLE (R22). -/

/-- Retained contents pending in ACTIVE, and slot 0 IDLE with a read burst at the port and a piece in hand. -/
def idleAtPort : State :=
  { State.reset with
    ctl := { State.reset.ctl with op := .active, retainedPending := true }
    memState := .ready
    slots :=
      State.reset.slots.set 0
        { Slot.none with
          inHand := [{ pos := 1, data := [] }], ops := [{ kind := .read, pos := 0, addr := 0, len := 8 }],
          port := .inProgress }
    port := { State.reset.port with holder := .slot 0 }
    pending := [.readBurst [{ condition := .uncorrectable, data := none }]] }

/-- What the read burst of `idleAtPort` leaves. -/
def afterIdleAtPort : State :=
  readBurstEnd { idleAtPort with pending := [] } 0 { kind := .read, pos := 0, addr := 0, len := 8 }
    [{ condition := .uncorrectable, data := none }]

theorem slotAtPort_idleAtPort :
    slotAtPort { idleAtPort with pending := [] } .read =
      some (0, { kind := .read, pos := 0, addr := 0, len := 8 }) := by
  decide +kernel

theorem step_idleAtPort : step idleAtPort = .next afterIdleAtPort := by
  have hstep : step idleAtPort =
      execReadBurst [{ condition := .uncorrectable, data := none }] { idleAtPort with pending := [] } := rfl
  have hcore : ¬ { idleAtPort with pending := [] }.power.core = false := by decide
  have hin : withinArray { idleAtPort with pending := [] } { kind := .read, pos := 0, addr := 0, len := 8 } = true := by
    decide
  rw [hstep, execReadBurst, if_neg hcore]
  simp only [slotAtPort_idleAtPort, hin, if_true]
  rfl

theorem idleAtPort_retainedLaw : idleAtPort.RetainedLaw := by
  unfold State.RetainedLaw State.settling
  decide +kernel

theorem idleAtPort_referenceLaw : idleAtPort.ReferenceLaw := by
  unfold State.ReferenceLaw
  decide +kernel

theorem afterIdleAtPort_pending : afterIdleAtPort.ctl.retainedPending = true := by decide +kernel

theorem afterIdleAtPort_ending : (afterIdleAtPort.slot 0).state = .ending := by decide +kernel

/-- Refutes O13: from `idleAtPort` a step leaves slot 0 in ENDING while retained contents are pending. -/
theorem not_referenceLawKept : ¬ Obligations.ReferenceLawKept := by
  unfold Obligations.ReferenceLawKept
  intro h
  obtain ⟨-, -, hidle⟩ := h _ _ idleAtPort_retainedLaw idleAtPort_referenceLaw step_idleAtPort
  have hi := (hidle afterIdleAtPort_pending).2 0
  rw [afterIdleAtPort_ending] at hi
  cases hi

end Sys2Proof.Machine
end

section
/-! SUPPORT. The commands of the admin ring that the Partition Table owns: the checks of each as equations of its taking,
and what a taken command then completes with (R11 to R19, R22, R135, R164); and the tests of a buffer reference (R5). -/

-- One theorem at a time, as in the tests above: fewer threads than the memory limit allows.
set_option Elab.async false

namespace Sys2Proof.Machine

/-! ### The tests of one buffer reference (R5) -/

theorem checkRef_of_index {s : State} {r : BufferRef} {c : Fin 16} {w : Bool} {len : Nat} {i : Fin 16}
    (hi : r.partition.toNat = i.val) :
    checkRef s r c w len =
      if (s.part i).state = .free ∨ (s.part i).state = .releasing then some .partitionState
      else if r.generation ≠ (s.part i).generation then some .stale
      else if (s.part i).mask.getLsbD c.val = false then some .access
      else if w = true ∧ (s.part i).state ≠ .opened then some .protect
      else if (s.part i).length * 4096 < r.offset + len then some .bounds
      else none := by
  simp only [checkRef, partitionIndex_eq_some.mpr hi]

/-- Settles O19: each clause fixes which of the five conditions of `checkRef_of_index` is the first to hold. -/
theorem referenceCheckOrder : Obligations.ReferenceCheckOrder := by
  intro s r c w len
  refine ⟨fun h => ?_, fun i hi => ?_⟩
  · simp only [checkRef, partitionIndex_eq_none.mpr h]
  · rw [checkRef_of_index hi]
    refine ⟨fun h => if_pos h, fun h => ?_⟩
    have hused : ¬((s.part i).state = .free ∨ (s.part i).state = .releasing) := by
      obtain h | h := h <;> simp [h]
    rw [if_neg hused]
    refine ⟨fun hg => if_pos hg, fun hg => ?_⟩
    rw [if_neg (not_not.mpr hg)]
    refine ⟨fun hm => if_pos hm, fun hm => ?_⟩
    rw [if_neg (by simp [hm])]
    refine ⟨fun hw => ?_, fun hw => ?_⟩
    · exact if_pos ⟨hw.1, by simp [hw.2]⟩
    · have hwrite : ¬(w = true ∧ (s.part i).state ≠ .opened) := by
        obtain hw | hw := hw <;> simp [hw]
      rw [if_neg hwrite]
      exact ⟨fun hb => if_pos hb, fun hb => if_neg (Nat.not_lt.mpr hb)⟩

/-! ### Commands taken from the admin ring (R134, R135) -/

theorem exec_definePartition (s : State) :
    exec .definePartition s = takeCommand (· == 1) (fun s r => withPartition s r (definePart s r)) settleLink s := rfl
theorem exec_freezePartition (s : State) :
    exec .freezePartition s = takeCommand (· == 2) (fun s r => withPartition s r (freezePart s)) settleLink s := rfl
theorem exec_releasePartition (s : State) :
    exec .releasePartition s = takeCommand (· == 3) (fun s r => withPartition s r (releasePart s)) settleLink s := rfl
theorem exec_clearTorn (s : State) :
    exec .clearTorn s = takeCommand (· == 4) (fun s r => withPartition s r (clearTornPart s)) settleLink s := rfl
theorem exec_getPartitions (s : State) :
    exec .getPartitions s = takeCommand (· == 5) getPartitions settleLink s := rfl
theorem exec_createChannel (s : State) :
    exec .createChannel s = takeCommand (· == 6) createChannel settleLink s := rfl
theorem exec_deleteChannel (s : State) :
    exec .deleteChannel s = takeCommand (· == 7) (fun s r => withChannel s r (deleteChan s)) conclude s := rfl
theorem exec_pauseChannel (s : State) :
    exec .pauseChannel s = takeCommand (· == 8) (fun s r => withChannel s r (pauseChan s)) settleLink s := rfl
theorem exec_resumeChannel (s : State) :
    exec .resumeChannel s = takeCommand (· == 9) (fun s r => withChannel s r (resumeChan s)) settleLink s := rfl
theorem exec_getHealth (s : State) :
    exec .getHealth s = takeCommand (· == 14) getHealth settleLink s := rfl
theorem exec_getRetentionRecord (s : State) :
    exec .getRetentionRecord s = takeCommand (· == 20) getRetentionRecord settleLink s := rfl
theorem exec_claimRetained (s : State) :
    exec .claimRetained s = takeCommand (· == 21) claimRetained settleLink s := rfl
theorem exec_discardRetained (s : State) :
    exec .discardRetained s = takeCommand (· == 22) discardRetained settleLink s := rfl
theorem exec_unknownCommand (s : State) :
    exec .unknownCommand s =
      takeCommand (fun n => !isKnownCode n) (fun s _ => .refused s .badCommand) settleLink s := rfl


/-- A taken command whose checks and effect leave `x` completes with `x`. -/
theorem completes_of_done {i : Instr} {codes : Nat → Bool} {body : State → Record → Taken} {s x : State} {f : Fetched}
    {rest : List Fetched} {code : Nat} {st : Status} {v : Word32} (hi : exec i s = takeCommand codes body settleLink s)
    (ht : Takes s f rest code) (hc : codes code = true)
    (hb : body (beginCommand s f rest) f.entry = .done { x with admin := (beginCommand s f rest).admin } st v) :
    Completes i s f rest st v x := by
  refine ⟨_, hi.trans (takeCommand_next ht hc), ?_⟩
  have hd := taken_done_state s { x with admin := (beginCommand s f rest).admin } f rest st v rfl
  rw [hb, hd, besideTags_settleLink]

/-- A taken command that a check refuses completes with the check's status and changes nothing. -/
theorem completes_of_refused {i : Instr} {codes : Nat → Bool} {body : State → Record → Taken} {s : State} {f : Fetched}
    {rest : List Fetched} {code : Nat} {st : Status} (hi : exec i s = takeCommand codes body settleLink s)
    (ht : Takes s f rest code) (hc : codes code = true)
    (hb : body (beginCommand s f rest) f.entry = .refused (beginCommand s f rest) st) :
    Completes i s f rest st 0 s :=
  completes_of_done hi ht hc hb

/-! ### The checks that several commands share (R11, R41 to R43) -/

theorem withPartition_pending {s : State} (r : Record) (body : Fin 16 → Taken) (h : s.ctl.retainedPending = true) :
    withPartition s r body = .refused s .retainedPending := if_pos h

theorem withPartition_badId {s : State} {r : Record} (body : Fin 16 → Taken) (h : s.ctl.retainedPending = false)
    (hid : 16 ≤ (byteAt r 8).toNat) : withPartition s r body = .refused s .badId := by
  simp [withPartition, h, partitionIndex_eq_none.mpr hid]

theorem withPartition_index {s : State} {r : Record} (body : Fin 16 → Taken) {i : Fin 16}
    (h : s.ctl.retainedPending = false) (hid : (byteAt r 8).toNat = i.val) : withPartition s r body = body i := by
  simp [withPartition, h, partitionIndex_eq_some.mpr hid]

theorem channelIndex_eq_none {id : BitVec 8} (h : id.toNat = 0 ∨ 17 ≤ id.toNat) : channelIndex id = none :=
  dif_neg (by omega)

theorem channelIndex_eq_some {id : BitVec 8} {c : Fin 16} (h : id.toNat = c.val + 1) : channelIndex id = some c := by
  rw [channelIndex, dif_pos (by omega)]
  simp [h]

theorem withChannel_badId {s : State} {r : Record} (body : Fin 16 → Taken)
    (hid : (byteAt r 8).toNat = 0 ∨ 17 ≤ (byteAt r 8).toNat) : withChannel s r body = .refused s .badId := by
  simp [withChannel, channelIndex_eq_none hid]

theorem withChannel_absent {s : State} {r : Record} (body : Fin 16 → Taken) {c : Fin 16}
    (hid : (byteAt r 8).toNat = c.val + 1) (h : (s.chan c).state = .absent) :
    withChannel s r body = .refused s .notFound := by
  simp [withChannel, channelIndex_eq_some hid, h]

/-! ### DEFINE_PARTITION (R12, R13) -/

theorem retentionClass_eq_none {b : BitVec 8} (h : 2 ≤ b.toNat) : retentionClass b = none := by
  unfold retentionClass
  split
  · rename_i h0; rw [h0] at h; omega
  · rename_i h1; rw [h1] at h; omega
  · rfl

theorem retentionClass_eq_some {b : BitVec 8} (h : b.toNat < 2) :
    retentionClass b = some (if b.toNat = 1 then .keep else .discard) := by
  obtain h | h : b.toNat = 0 ∨ b.toNat = 1 := by omega
  · simp [retentionClass, h]
  · simp [retentionClass, h]

theorem definePart_badParameter {s : State} {r : Record} {i : Fin 16}
    (h : (wordAt r 16).toNat = 0 ∨ 2 ≤ (byteAt r 9).toNat) : definePart s r i = .refused s .badParameter := by
  unfold definePart
  simp only
  split
  · rfl
  · rename_i hcls
    obtain h | h := h
    · exact if_pos h
    · rw [retentionClass_eq_none h] at hcls; cases hcls

/-- With a range and a class that are in order, the checks of R12 that the table makes. -/
theorem definePart_eq {s : State} {r : Record} {i : Fin 16} (hlen : (wordAt r 16).toNat ≠ 0)
    (hcls : (byteAt r 9).toNat < 2) :
    definePart s r i =
      if (s.part i).state ≠ .free then .refused s .alreadyExists
      else if s.capacity.units < (wordAt r 12).toNat + (wordAt r 16).toNat then .refused s .noSpace
      else if overlapsDefined s (wordAt r 12).toNat (wordAt r 16).toNat then .refused s .overlap
      else
        .done
          (s.setPart i
            { s.part i with
              state := .opened, base := (wordAt r 12).toNat, length := (wordAt r 16).toNat, mask := halfAt r 10
              cls := if (byteAt r 9).toNat = 1 then .keep else .discard
              generation := (s.part i).generation + 1, torn := false }) .ok 0 := by
  simp only [definePart, retentionClass_eq_some hcls, if_neg hlen]

theorem overlapsDefined_iff {s : State} {base len : Nat} :
    overlapsDefined s base len = true ↔
      ∃ j, (s.part j).state ≠ .free ∧ base < (s.part j).base + (s.part j).length ∧ (s.part j).base < base + len := by
  simp [overlapsDefined, allChannels, unitsMeet]

theorem definePart_alreadyExists {s : State} {r : Record} {i : Fin 16} (hlen : (wordAt r 16).toNat ≠ 0)
    (hcls : (byteAt r 9).toNat < 2) (hs : (s.part i).state ≠ .free) :
    definePart s r i = .refused s .alreadyExists := by
  rw [definePart_eq hlen hcls, if_pos hs]

theorem definePart_noSpace {s : State} {r : Record} {i : Fin 16} (hlen : (wordAt r 16).toNat ≠ 0)
    (hcls : (byteAt r 9).toNat < 2) (hs : (s.part i).state = .free)
    (hc : s.capacity.units < (wordAt r 12).toNat + (wordAt r 16).toNat) :
    definePart s r i = .refused s .noSpace := by
  rw [definePart_eq hlen hcls, if_neg (not_not.mpr hs), if_pos hc]

/-- With every check passed but that of the ranges in use, the ranges decide. -/
theorem definePart_fits {s : State} {r : Record} {i : Fin 16} (hlen : (wordAt r 16).toNat ≠ 0)
    (hcls : (byteAt r 9).toNat < 2) (hs : (s.part i).state = .free)
    (hc : (wordAt r 12).toNat + (wordAt r 16).toNat ≤ s.capacity.units) :
    definePart s r i =
      if overlapsDefined s (wordAt r 12).toNat (wordAt r 16).toNat then .refused s .overlap
      else
        .done
          (s.setPart i
            { s.part i with
              state := .opened, base := (wordAt r 12).toNat, length := (wordAt r 16).toNat, mask := halfAt r 10
              cls := if (byteAt r 9).toNat = 1 then .keep else .discard
              generation := (s.part i).generation + 1, torn := false }) .ok 0 := by
  rw [definePart_eq hlen hcls, if_neg (not_not.mpr hs), if_neg (Nat.not_lt.mpr hc)]

/-- Settles O39: one equation of `definePart` for each check, and the last for the entry made. -/
theorem definePartition : Obligations.DefinePartition := by
  intro s f rest i ht hp hid
  have hw : ∀ body : Fin 16 → Taken, withPartition (beginCommand s f rest) f.entry body = body i :=
    fun body => withPartition_index body hp hid
  have he := exec_definePartition s
  refine ⟨fun h => ?_,
    fun hlen hcls => ⟨fun hs => ?_, fun hs => ⟨fun hc => ?_, fun hc => ⟨fun hm => ?_, fun hm => ?_⟩⟩⟩⟩
  · exact completes_of_refused he ht rfl ((hw _).trans (definePart_badParameter h))
  · exact completes_of_refused he ht rfl ((hw _).trans (definePart_alreadyExists hlen hcls hs))
  · exact completes_of_refused he ht rfl ((hw _).trans (definePart_noSpace hlen hcls hs hc))
  · have hfits := definePart_fits (s := beginCommand s f rest) hlen hcls hs hc
    exact completes_of_refused he ht rfl ((hw _).trans (hfits.trans (if_pos (overlapsDefined_iff.mpr hm))))
  · have hfits := definePart_fits (s := beginCommand s f rest) hlen hcls hs hc
    have hover : ¬overlapsDefined s (wordAt f.entry 12).toNat (wordAt f.entry 16).toNat = true :=
      fun h => (overlapsDefined_iff.mp h).elim hm
    exact completes_of_done he ht rfl ((hw _).trans (hfits.trans (if_neg hover)))

/-! ### FREEZE_PARTITION, RELEASE_PARTITION and CLEAR_TORN (R14 to R16, R19) -/

theorem not_opened_or_frozen {x : PartitionState} (h : x = .free ∨ x = .releasing) : x ≠ .opened ∧ x ≠ .frozen := by
  obtain rfl | rfl := h <;> decide

theorem opened_or_frozen {x : PartitionState} (h : x = .opened ∨ x = .frozen) : ¬(x ≠ .opened ∧ x ≠ .frozen) := by
  obtain rfl | rfl := h <;> decide

/-- The checks of R14 on an OPEN entry. -/
theorem freezePart_opened {s : State} {i : Fin 16} (h : (s.part i).state = .opened) :
    freezePart s i =
      if (s.part i).writeRefs ≠ 0 then .refused s .inUse
      else if (s.part i).torn then .refused s .torn
      else .done (s.setPart i { s.part i with state := .frozen }) .ok 0 := if_neg (not_not.mpr h)

/-- With references held, a release begins to wait (R16). -/
theorem releasePart_waits {s : State} {i : Fin 16} (hs : (s.part i).state = .opened ∨ (s.part i).state = .frozen)
    (hr : (s.part i).refs ≠ 0) :
    releasePart s i = .waits ((s.setPart i { s.part i with state := .releasing }).waitFor (.references i)) :=
  (if_neg (opened_or_frozen hs)).trans (if_neg hr)

/-- A release that must wait leaves the entry RELEASING and the command waiting for it (R16). -/
theorem releasePartition_waits {s : State} {f : Fetched} {rest : List Fetched} {i : Fin 16} (ht : Takes s f rest 3)
    (hp : s.ctl.retainedPending = false) (hid : (byteAt f.entry 8).toNat = i.val)
    (hs : (s.part i).state = .opened ∨ (s.part i).state = .frozen) (hr : (s.part i).refs ≠ 0) :
    ∃ t, exec .releasePartition s = .next t ∧
      t.besideTags =
        { s.setPart i { s.part i with state := .releasing } with
          admin := s.admin.waiting f rest (.references i) }.besideTags := by
  have hbody := (withPartition_index (s := beginCommand s f rest) (releasePart (beginCommand s f rest)) hp hid).trans
    (releasePart_waits (s := beginCommand s f rest) hs hr)
  refine ⟨_, (exec_releasePartition s).trans (takeCommand_next ht rfl), ?_⟩
  rw [hbody, besideTags_settleLink]
  rfl

/-- Settles O40: each check of a command as one branch of its equation, then the branch that carries it out. -/
theorem partitionEntryCommands : Obligations.PartitionEntryCommands := by
  intro s f rest i hp hid
  have hw : ∀ body : Fin 16 → Taken, withPartition (beginCommand s f rest) f.entry body = body i :=
    fun body => withPartition_index body hp hid
  have hopened (hs : (s.part i).state = .opened) := freezePart_opened (s := beginCommand s f rest) (i := i) hs
  refine ⟨fun ht => ⟨fun hs => ?_, fun hs => ⟨fun hr => ?_, fun hr hn => ?_, fun hr hn => ?_⟩⟩,
    fun ht => ⟨fun hs => ?_, fun hs => ?_⟩, fun ht => ⟨fun hs => ?_, fun hs => ⟨fun hr => ?_, fun hr => ?_⟩⟩⟩
  · exact completes_of_refused (exec_freezePartition s) ht rfl ((hw _).trans (if_pos hs))
  · exact completes_of_refused (exec_freezePartition s) ht rfl ((hw _).trans ((hopened hs).trans (if_pos hr)))
  · exact completes_of_refused (exec_freezePartition s) ht rfl
      ((hw _).trans ((hopened hs).trans ((if_neg (not_not.mpr hr)).trans (if_pos hn))))
  · exact completes_of_done (exec_freezePartition s) ht rfl
      ((hw _).trans ((hopened hs).trans ((if_neg (not_not.mpr hr)).trans (if_neg (Bool.eq_false_iff.mp hn)))))
  · exact completes_of_refused (exec_clearTorn s) ht rfl ((hw _).trans (if_pos (not_opened_or_frozen hs)))
  · exact completes_of_done (exec_clearTorn s) ht rfl ((hw _).trans (if_neg (opened_or_frozen hs)))
  · exact completes_of_refused (exec_releasePartition s) ht rfl ((hw _).trans (if_pos (not_opened_or_frozen hs)))
  · exact completes_of_done (exec_releasePartition s) ht rfl
      ((hw _).trans ((if_neg (opened_or_frozen hs)).trans (if_pos hr)))
  · exact releasePartition_waits ht hp hid hs hr

/-! ### Refusals (R11, R40 to R43, R135) -/

/-- A DELETE_CHANNEL that its checks refuse completes and changes nothing else (R43). -/
theorem deleteChannel_refused {s : State} {f : Fetched} {rest : List Fetched} {st : Status} (ht : Takes s f rest 7)
    (he : s.EntryLaw)
    (hb : withChannel (beginCommand s f rest) f.entry (deleteChan (beginCommand s f rest)) =
      .refused (beginCommand s f rest) st) :
    Concludes .deleteChannel s { s with admin := s.admin.completing f rest st 0 } := by
  refine concludes_of_next ?_ (x := { s with admin := s.admin.completing f rest st 0 }) he
  refine ((exec_deleteChannel s).trans (takeCommand_next ht rfl)).trans ?_
  rw [hb, Taken.refused, taken_done_state s _ f rest st 0 rfl]
  rfl

/-- Settles O41: each command meets the check that refuses it before any other. -/
theorem commandRefusals : Obligations.CommandRefusals := by
  intro s f rest code ht
  refine ⟨fun hc => ?_, fun hp => ?_, fun hp hid => ?_, ?_, ?_⟩
  · refine completes_of_refused (exec_unknownCommand s) ht ?_ rfl
    simp only [isKnownCode, Bool.not_eq_true', Bool.and_eq_false_iff, decide_eq_false_iff_not]
    omega
  · simp only [List.forall_mem_cons, List.not_mem_nil, false_implies, implies_true, and_true]
    refine ⟨?_, ?_, ?_, ?_, ?_⟩ <;> rintro rfl
    · exact completes_of_refused (exec_definePartition s) ht rfl (withPartition_pending _ _ hp)
    · exact completes_of_refused (exec_freezePartition s) ht rfl (withPartition_pending _ _ hp)
    · exact completes_of_refused (exec_releasePartition s) ht rfl (withPartition_pending _ _ hp)
    · exact completes_of_refused (exec_clearTorn s) ht rfl (withPartition_pending _ _ hp)
    · exact completes_of_refused (exec_createChannel s) ht rfl (if_pos hp)
  · simp only [List.forall_mem_cons, List.not_mem_nil, false_implies, implies_true, and_true]
    refine ⟨?_, ?_, ?_, ?_⟩ <;> rintro rfl
    · exact completes_of_refused (exec_definePartition s) ht rfl (withPartition_badId _ hp hid)
    · exact completes_of_refused (exec_freezePartition s) ht rfl (withPartition_badId _ hp hid)
    · exact completes_of_refused (exec_releasePartition s) ht rfl (withPartition_badId _ hp hid)
    · exact completes_of_refused (exec_clearTorn s) ht rfl (withPartition_badId _ hp hid)
  · simp only [List.forall_mem_cons, List.not_mem_nil, false_implies, implies_true, and_true]
    refine ⟨?_, ?_⟩ <;> rintro rfl
    · exact ⟨fun hid => completes_of_refused (exec_pauseChannel s) ht rfl (withChannel_badId _ hid),
        fun c hid ha => completes_of_refused (exec_pauseChannel s) ht rfl (withChannel_absent _ hid ha)⟩
    · exact ⟨fun hid => completes_of_refused (exec_resumeChannel s) ht rfl (withChannel_badId _ hid),
        fun c hid ha => completes_of_refused (exec_resumeChannel s) ht rfl (withChannel_absent _ hid ha)⟩
  · rintro rfl he
    exact ⟨fun hid => deleteChannel_refused ht he (withChannel_badId _ hid),
      fun c hid ha => deleteChannel_refused ht he (withChannel_absent _ hid ha)⟩

/-! ### CLAIM_RETAINED and DISCARD_RETAINED (R22, R164) -/

theorem freeWhere_eq (s : State) {f g : Partition → Bool} (h : ∀ p, f p = true ↔ p.state ≠ .free ∧ g p = true) :
    freeWhere s f =
      { s with
        partitions := tabulate 16 fun i =>
          if (s.part i).state ≠ .free ∧ g (s.part i) = true then Partition.freed (s.part i).generation
          else s.part i } := by
  simp only [freeWhere, h]

/-- Settles O47. -/
theorem recoveryCommands : Obligations.RecoveryCommands := by
  intro s f rest
  refine ⟨fun hp => ⟨fun ht => ?_, fun ht => ?_⟩, fun hp => ⟨fun ht => ?_, fun ht => ?_⟩⟩
  · exact completes_of_refused (exec_claimRetained s) ht rfl (if_pos hp)
  · exact completes_of_refused (exec_discardRetained s) ht rfl (if_pos hp)
  · refine completes_of_done (exec_claimRetained s) ht rfl ((if_neg (by simp [beginCommand, hp])).trans ?_)
    rw [freeWhere_eq (g := fun p => p.cls == .discard) _ fun p => by simp [and_comm]]
    rfl
  · refine completes_of_done (exec_discardRetained s) ht rfl ((if_neg (by simp [beginCommand, hp])).trans ?_)
    rw [freeWhere_eq (g := fun _ => true) _ fun p => by simp]
    rfl

end Sys2Proof.Machine
end

section
/-! SUPPORT. Fields of the records that the GET commands write (R180): where a field lies in bytes put one after another,
and each field of each record; then the three reports (R20, R127, R165). -/

-- One theorem at a time, as in the tests above: fewer threads than the memory limit allows.
set_option Elab.async false

namespace Sys2Proof.Machine

/-! ### A field of `n` bytes at an offset -/

/-- The little-endian field of `n` bytes at byte `o`. -/
def fieldOf (bytes : List Byte) (o n : Nat) : Nat := leValue ((bytes.drop o).take n)

theorem fieldOf_append_left {a b : List Byte} {o n : Nat} (h : o + n ≤ a.length) :
    fieldOf (a ++ b) o n = fieldOf a o n := by
  rw [fieldOf, List.drop_append_of_le_length (by omega), List.take_append_of_le_length (by simp; omega), fieldOf]

theorem fieldOf_append_right {a b : List Byte} {o n : Nat} (h : a.length ≤ o) :
    fieldOf (a ++ b) o n = fieldOf b (o - a.length) n := by
  rw [fieldOf, List.drop_append, List.drop_eq_nil_of_le h, List.nil_append, fieldOf]

@[simp] theorem fieldOf_leBytes (n v : Nat) : fieldOf (leBytes n v) 0 n = v % 256 ^ n := by
  rw [fieldOf, List.drop_zero, List.take_of_length_le (by simp), leValue_leBytes]

theorem length_flatMap_const {α : Type} {f : α → List Byte} {w : Nat} (hf : ∀ x, (f x).length = w) (l : List α) :
    (l.flatMap f).length = l.length * w := by
  simp [List.length_flatMap, hf]

/-- In equal parts put one after another, a field inside part `i`. -/
theorem fieldOf_flatMap {α : Type} {f : α → List Byte} {w : Nat} (hf : ∀ x, (f x).length = w) {l : List α} {i o n : Nat}
    (hi : i < l.length) (ho : o + n ≤ w) : fieldOf (l.flatMap f) (w * i + o) n = fieldOf (f l[i]) o n := by
  induction l generalizing i with
  | nil => simp at hi
  | cons x l ih =>
    rw [List.flatMap_cons]
    cases i with
    | zero => simpa using fieldOf_append_left (by rw [hf]; omega)
    | succ i =>
      rw [fieldOf_append_right (by rw [hf, Nat.mul_succ]; omega), hf]
      rw [show w * (i + 1) + o - w = w * i + o by rw [Nat.mul_succ]; omega]
      exact ih (by simpa using hi)

theorem fieldOf_allChannels {f : Fin 16 → List Byte} {w : Nat} (hf : ∀ x, (f x).length = w) (i : Fin 16) {o n : Nat}
    (ho : o + n ≤ w) : fieldOf (allChannels.flatMap f) (w * i.val + o) n = fieldOf (f i) o n := by
  have hi : i.val < allChannels.length := by simp [allChannels]
  rw [fieldOf_flatMap hf hi ho]
  simp [allChannels]

/-! ### Line addresses and entries -/

@[simp] theorem lineBytes_length (l : List Nat) : (lineBytes l).length = 64 := by
  rw [lineBytes, length_flatMap_const (w := 8) (by simp)]
  simp

theorem fieldOf_lineBytes (l : List Nat) (i : Fin 8) :
    fieldOf (lineBytes l) (8 * i.val) 8 = l.getD i.val 0 % 2 ^ 64 := by
  have h := fieldOf_flatMap (f := fun i => leBytes 8 (l.getD i 0)) (w := 8) (by simp) (l := List.range 8) (i := i.val)
    (o := 0) (n := 8) (by simp) le_rfl
  simpa [lineBytes] using h

@[simp] theorem partitionBytes_length (p : Partition) (b : Bool) : (partitionBytes p b).length = 16 := by
  cases b <;> simp [partitionBytes]

@[simp] theorem channelEntryBytes_length (e : ChannelEntry) : (channelEntryBytes e).length = 16 := by
  unfold channelEntryBytes
  split <;> simp

theorem toNat_lt_byte (b : Bool) : b.toNat < 256 := by cases b <;> decide
theorem PartitionState.code_lt (x : PartitionState) : x.code < 256 := by cases x <;> decide
theorem RetentionClass.code_lt (x : RetentionClass) : x.code < 256 := by cases x <;> decide
theorem DrainReason.code_lt (x : DrainReason) : x.code < 256 := by cases x <;> decide
theorem FlushOutcome.code_lt (x : FlushOutcome) : x.code < 256 := by cases x <;> decide

/-- The fields of a partition entry but its counts (R180). -/
theorem fieldOf_partitionBytes (p : Partition) (b : Bool) :
    let h := fieldOf (partitionBytes p b)
    h 0 1 = p.state.code ∧ h 1 1 = p.cls.code ∧ h 2 1 = p.generation.toNat ∧ h 3 1 = p.torn.toNat ∧
      h 4 4 = p.base % 2 ^ 32 ∧ h 8 4 = p.length % 2 ^ 32 ∧ h 12 2 = p.mask.toNat := by
  simp [partitionBytes, fieldOf_append_left, fieldOf_append_right, Nat.mod_eq_of_lt, p.state.code_lt, p.cls.code_lt,
    toNat_lt_byte, p.generation.isLt, p.mask.isLt]

theorem fieldOf_partitionBytes_counts (p : Partition) :
    fieldOf (partitionBytes p true) 14 1 = p.refs % 256 ∧ fieldOf (partitionBytes p true) 15 1 = p.writeRefs % 256 := by
  simp [partitionBytes, fieldOf_append_left, fieldOf_append_right]

theorem fieldOf_partitionBytes_noCounts (p : Partition) : fieldOf (partitionBytes p false) 14 2 = 0 := by
  rw [partitionBytes, fieldOf_append_right (by simp)]
  rfl

/-- The fields of a channel entry (R180). -/
theorem fieldOf_channelEntryBytes (e : ChannelEntry) :
    let h := fieldOf (channelEntryBytes e)
    h 0 1 = e.existed.toNat + 2 * e.clean.toNat + 4 * e.slotDesc.isSome.toNat ∧ h 1 1 = e.terminated % 256 ∧
      h 2 2 = e.head % 2 ^ 16 ∧ h 4 4 = e.mark.toNat ∧ h 8 4 = ((e.slotDesc.map Prod.fst).getD 0).toNat ∧
      h 12 4 = (e.slotDesc.map Prod.snd).getD 0 % 2 ^ 32 := by
  have h1 := Bool.toNat_lt e.existed
  have h2 := Bool.toNat_lt e.clean
  have hzero : fieldOf (leBytes 8 0) 0 4 = 0 ∧ fieldOf (leBytes 8 0) 4 4 = 0 := by decide
  unfold channelEntryBytes
  cases e.slotDesc with
  | none =>
    simp [fieldOf_append_left, fieldOf_append_right, Nat.mod_eq_of_lt, e.mark.isLt, hzero]
    omega
  | some d =>
    simp [fieldOf_append_left, fieldOf_append_right, Nat.mod_eq_of_lt, e.mark.isLt, d.1.isLt]
    omega

/-! ### The three records -/

theorem partitionsBytes_length (s : State) : (partitionsBytes s).length = 256 := by
  rw [partitionsBytes, length_flatMap_const (w := 16) (by simp)]
  simp [allChannels]

theorem healthBytes_length (s : State) : (healthBytes s).length = 128 := by
  simp [healthBytes]

theorem retentionBytes_length (r : RetentionRecord) : (retentionBytes r).length = 640 := by
  simp only [retentionBytes, List.length_append, leBytes_length, lineBytes_length,
    length_flatMap_const (w := 16) (fun c => channelEntryBytes_length (r.channels.get c)),
    length_flatMap_const (w := 16) (fun i => partitionBytes_length (r.partitions.get i) false)]
  simp [allChannels]

theorem fieldOf_partitionsBytes (s : State) (i : Fin 16) {o n : Nat} (h : o + n ≤ 16) :
    fieldOf (partitionsBytes s) (16 * i.val + o) n = fieldOf (partitionBytes (s.part i) true) o n :=
  fieldOf_allChannels (f := fun i => partitionBytes (s.part i) true) (fun _ => partitionBytes_length _ _) i h

theorem fieldOf_healthBytes (s : State) :
    let h := fieldOf (healthBytes s)
    h 0 4 = s.health.correctable % 2 ^ 32 ∧ h 4 4 = s.health.uncorrectable % 2 ^ 32 ∧
      h 8 2 = s.health.overrun % 2 ^ 16 ∧ h 10 2 = s.health.deferral % 2 ^ 16 ∧
      h 12 1 = s.health.overflow % 256 ∧ h 13 1 = s.health.lines.length % 256 ∧ h 14 1 = s.refresh.limit % 256 ∧
      h 15 1 = s.refresh.pendingLimit.getD 255 % 256 ∧ h 16 2 = s.refresh.interval % 2 ^ 16 ∧
      h 18 1 = s.refresh.debt % 256 ∧ h 20 4 = s.scrub.period % 2 ^ 32 ∧ h 24 8 = s.scrub.pointer % 2 ^ 64 := by
  simp [healthBytes, fieldOf_append_left, fieldOf_append_right]

theorem fieldOf_healthBytes_line (s : State) (i : Fin 8) :
    fieldOf (healthBytes s) (32 + 8 * i.val) 8 = s.health.lines.getD i.val 0 % 2 ^ 64 := by
  rw [healthBytes, fieldOf_append_left (by simp; omega), fieldOf_append_right (by simp), ← fieldOf_lineBytes]
  simp

theorem fieldOf_retentionBytes (r : RetentionRecord) :
    let h := fieldOf (retentionBytes r)
    h 0 4 = r.sequence.toNat ∧ h 4 1 = r.valid.toNat + 2 * r.claimed.toNat + 4 * r.adminTag.isSome.toNat ∧
      h 5 1 = r.reason.code ∧ h 6 1 = r.outcome.code ∧ h 8 4 = r.timestamp.toNat ∧
      h 12 4 = (r.adminTag.getD 0).toNat ∧ h 16 2 = r.unflushed % 2 ^ 16 ∧ h 18 2 = r.overrun % 2 ^ 16 ∧
      h 20 1 = r.lines.length % 256 := by
  have hflags : r.valid.toNat + 2 * r.claimed.toNat + 4 * r.adminTag.isSome.toNat < 256 := by
    have h1 := Bool.toNat_lt r.valid
    have h2 := Bool.toNat_lt r.claimed
    have h3 := Bool.toNat_lt r.adminTag.isSome
    omega
  have htag : (r.adminTag.getD 0#32).toNat < 4294967296 := BitVec.isLt _
  simp [retentionBytes, fieldOf_append_left, fieldOf_append_right, Nat.mod_eq_of_lt, hflags, r.reason.code_lt,
    r.outcome.code_lt, r.sequence.isLt, r.timestamp.isLt, htag]

/-- The head of a retention record: the 128 bytes before its channel section. -/
theorem retentionBytes_eq (r : RetentionRecord) :
    ∃ head : List Byte, head.length = 24 ∧
      retentionBytes r =
        ((head ++ lineBytes r.lines ++ leBytes 40 0) ++
            (allChannels.flatMap fun c => channelEntryBytes (r.channels.get c))) ++
          (allChannels.flatMap fun i => partitionBytes (r.partitions.get i) false) :=
  ⟨_, by simp, rfl⟩

theorem fieldOf_retentionBytes_line (r : RetentionRecord) (i : Fin 8) :
    fieldOf (retentionBytes r) (24 + 8 * i.val) 8 = r.lines.getD i.val 0 % 2 ^ 64 := by
  obtain ⟨head, hl, he⟩ := retentionBytes_eq r
  rw [he, fieldOf_append_left (by simp [hl]; omega), fieldOf_append_left (by simp [hl]; omega),
    fieldOf_append_left (by simp [hl]; omega), fieldOf_append_right (by simp [hl]), ← fieldOf_lineBytes]
  simp [hl]

theorem fieldOf_retentionBytes_channel (r : RetentionRecord) (c : Fin 16) {o n : Nat} (h : o + n ≤ 16) :
    fieldOf (retentionBytes r) (128 + o + 16 * c.val) n = fieldOf (channelEntryBytes (r.channels.get c)) o n := by
  have hlen := length_flatMap_const (w := 16) (fun c => channelEntryBytes_length (r.channels.get c)) allChannels
  have h16 : allChannels.length = 16 := by simp [allChannels]
  obtain ⟨head, hl, he⟩ := retentionBytes_eq r
  rw [he, fieldOf_append_left (by simp [hl, hlen, h16]; omega), fieldOf_append_right (by simp [hl]; omega),
    ← fieldOf_allChannels (f := fun c => channelEntryBytes (r.channels.get c)) (fun _ => channelEntryBytes_length _) c h]
  congr 1
  simp [hl]; omega

theorem fieldOf_retentionBytes_partition (r : RetentionRecord) (i : Fin 16) {o n : Nat} (h : o + n ≤ 16) :
    fieldOf (retentionBytes r) (384 + o + 16 * i.val) n =
      fieldOf (partitionBytes (r.partitions.get i) false) o n := by
  have hlen := length_flatMap_const (w := 16) (fun c => channelEntryBytes_length (r.channels.get c)) allChannels
  have h16 : allChannels.length = 16 := by simp [allChannels]
  obtain ⟨head, hl, he⟩ := retentionBytes_eq r
  rw [he, fieldOf_append_right (by simp [hl, hlen, h16]; omega),
    ← fieldOf_allChannels (f := fun i => partitionBytes (r.partitions.get i) false)
      (fun _ => partitionBytes_length _ _) i h]
  congr 1
  simp [hl, hlen, h16]; omega

/-! ### The reports (R20, R127, R165) -/

theorem aligned64_iff (a : HostAddr) : aligned64 a = true ↔ a.toNat % 64 = 0 := by
  rw [aligned64, beq_iff_eq, ← BitVec.toNat_inj]
  simp

/-- A report handed over while a command is in execution: the Admin Processor is as it was (R20). -/
theorem postRecord_beginCommand (s : State) (f : Fetched) (rest : List Fetched) (bytes : List Byte) :
    postRecord (beginCommand s f rest) f.entry bytes =
      { s.handOut (.write (longAt f.entry 8) bytes) with admin := (beginCommand s f rest).admin } := by
  simp only [postRecord, handOut_write, beginCommand]
  split <;> rfl

/-- Settles O42: the misaligned reports, the reports written, and each record field by field. -/
theorem reportsWritten : Obligations.ReportsWritten := by
  intro s f rest
  have haligned := aligned64_iff (longAt f.entry 8)
  refine ⟨?_, fun ha => ⟨fun ht => ?_, fun ht => ?_, fun ht hv => ?_, fun ht hv => ?_⟩, partitionsBytes_length s,
    healthBytes_length s, retentionBytes_length _, fun i => ?_, ?_, ?_⟩
  · simp only [List.forall_mem_cons, List.not_mem_nil, false_implies, implies_true, and_true]
    refine ⟨fun ht ha => ?_, fun ht ha => ?_, fun ht ha => ?_⟩
    · exact completes_of_refused (exec_getPartitions s) ht rfl (if_neg (mt haligned.mp ha))
    · exact completes_of_refused (exec_getHealth s) ht rfl (if_neg (mt haligned.mp ha))
    · exact completes_of_refused (exec_getRetentionRecord s) ht rfl
        (if_pos (Bool.eq_false_iff.mpr (mt haligned.mp ha)))
  · refine completes_of_done (exec_getPartitions s) ht rfl ((if_pos (haligned.mpr ha)).trans ?_)
    rw [postRecord_beginCommand]; rfl
  · refine completes_of_done (exec_getHealth s) ht rfl ((if_pos (haligned.mpr ha)).trans ?_)
    rw [postRecord_beginCommand]; rfl
  · exact completes_of_refused (exec_getRetentionRecord s) ht rfl
      ((if_neg (by simp [haligned.mpr ha])).trans (if_pos hv))
  · refine completes_of_done (exec_getRetentionRecord s) ht rfl
      ((if_neg (by simp [haligned.mpr ha])).trans ((if_neg (Bool.not_eq_false _ ▸ hv)).trans ?_))
    rw [postRecord_beginCommand]; rfl
  · have hp := fun o n (h : o + n ≤ 16) => fieldOf_partitionsBytes s i h
    obtain ⟨h0, h1, h2, h3, h4, h8, h12⟩ := fieldOf_partitionBytes (s.part i) true
    obtain ⟨h14, h15⟩ := fieldOf_partitionBytes_counts (s.part i)
    exact ⟨(hp 0 1 (by decide)).trans h0, (hp 1 1 (by decide)).trans h1, (hp 2 1 (by decide)).trans h2,
      (hp 3 1 (by decide)).trans h3, (hp 4 4 (by decide)).trans h4, (hp 8 4 (by decide)).trans h8,
      (hp 12 2 (by decide)).trans h12, (hp 14 1 (by decide)).trans h14, (hp 15 1 (by decide)).trans h15⟩
  · obtain ⟨h0, h4, h8, h10, h12, h13, h14, h15, h16, h18, h20, h24⟩ := fieldOf_healthBytes s
    exact ⟨h0, h4, h8, h10, h12, h13, h14, h15, h16, h18, h20, h24, fieldOf_healthBytes_line s⟩
  · obtain ⟨h0, h4, h5, h6, h8, h12, h16, h18, h20⟩ := fieldOf_retentionBytes s.ctl.record
    refine ⟨h0, h4, h5, h6, h8, h12, h16, h18, h20, fieldOf_retentionBytes_line _, fun c => ?_⟩
    have hc := fun o n (h : o + n ≤ 16) => fieldOf_retentionBytes_channel s.ctl.record c h
    have hp := fun o n (h : o + n ≤ 16) => fieldOf_retentionBytes_partition s.ctl.record c h
    obtain ⟨c0, c1, c2, c4, c8, c12⟩ := fieldOf_channelEntryBytes (s.ctl.record.channels.get c)
    obtain ⟨p0, p1, p2, p3, p4, p8, p12⟩ := fieldOf_partitionBytes (s.ctl.record.partitions.get c) false
    have p14 := fieldOf_partitionBytes_noCounts (s.ctl.record.partitions.get c)
    exact ⟨(hc 0 1 (by decide)).trans c0, (hc 1 1 (by decide)).trans c1, (hc 2 2 (by decide)).trans c2,
      (hc 4 4 (by decide)).trans c4, (hc 8 4 (by decide)).trans c8, (hc 12 4 (by decide)).trans c12,
      (hp 0 1 (by decide)).trans p0, (hp 1 1 (by decide)).trans p1, (hp 2 1 (by decide)).trans p2,
      (hp 3 1 (by decide)).trans p3, (hp 4 4 (by decide)).trans p4, (hp 8 4 (by decide)).trans p8,
      (hp 12 2 (by decide)).trans p12, (hp 14 2 (by decide)).trans p14⟩

end Sys2Proof.Machine
end

section
/-! SUPPORT. What the end of a descriptor does to every entry of the Partition Table and to a RELEASE_PARTITION that
waits (R8, R9, R16 to R18). -/

-- One theorem at a time, as in the tests above: fewer threads than the memory limit allows.
set_option Elab.async false

namespace Sys2Proof.Machine

/-! ### The table after a descriptor's end (R8, R9, R18) -/

/-- Reference A of the slot's descriptor names entry `i`. -/
abbrev Slot.namesA (sl : Slot) (i : Fin 16) : Prop := partitionIndex (refA sl.entry).partition = some i

/-- The slot holds reference B, which names entry `i`. -/
abbrev Slot.namesB (sl : Slot) (i : Fin 16) : Prop :=
  sl.refs = .ab ∧ partitionIndex (refB sl.entry).partition = some i

/-- Entry `i` with the references of a slot taken off it, and torn where R9 requires. -/
def State.lowered (s : State) (sl : Slot) (write torn : Bool) (i : Fin 16) : Partition :=
  { s.part i with
    refs := (s.part i).refs - (if sl.namesA i then 1 else 0) - (if sl.namesB i then 1 else 0)
    writeRefs := (s.part i).writeRefs - (if sl.namesA i ∧ write = true then 1 else 0)
    torn := (s.part i).torn || (decide (sl.namesA i) && torn) }

/-- The end of the slot's descriptor frees entry `i` (R18). -/
abbrev State.frees (s : State) (sl : Slot) (i : Fin 16) : Prop :=
  (sl.namesA i ∨ sl.namesB i) ∧ (s.part i).state = .releasing ∧ (s.lowered sl false false i).refs = 0

theorem markTornIf_part (s : State) (r : BufferRef) (torn : Bool) (i : Fin 16) :
    (if torn then markTorn s r else s).part i =
      { s.part i with
        torn := (s.part i).torn || (decide (partitionIndex r.partition = some i) && torn) } := by
  cases torn with
  | false => simp
  | true =>
    rw [if_pos rfl, markTorn_part]
    split <;> simp [*]

theorem HeldRefs.cases (x : HeldRefs) : x = .none ∨ x = .a ∨ x = .ab := by cases x <;> simp

theorem releaseRefs_none {s : State} {sl : Slot} {w torn : Bool} (h : sl.refs = .none) :
    releaseRefs s sl w torn = s := by
  simp only [releaseRefs, h]

/-- The table with reference A taken off, torn where R9 requires. -/
def dropA (s : State) (sl : Slot) (w torn : Bool) : State :=
  dropRef (if torn then markTorn s (refA sl.entry) else s) (refA sl.entry) w

theorem releaseRefs_a {s : State} {sl : Slot} {w torn : Bool} (h : sl.refs = .a) :
    releaseRefs s sl w torn = freeIfReleased (dropA s sl w torn) (refA sl.entry) := by
  simp only [releaseRefs, h, dropA]

theorem releaseRefs_ab {s : State} {sl : Slot} {w torn : Bool} (h : sl.refs = .ab) :
    releaseRefs s sl w torn =
      freeIfReleased (freeIfReleased (dropRef (dropA s sl w torn) (refB sl.entry) false) (refA sl.entry))
        (refB sl.entry) := by
  simp only [releaseRefs, h, dropA]

theorem dropA_part (s : State) (sl : Slot) (w torn : Bool) (i : Fin 16) :
    (dropA s sl w torn).part i =
      { s.part i with
        refs := (s.part i).refs - (if sl.namesA i then 1 else 0)
        writeRefs := (s.part i).writeRefs - (if sl.namesA i ∧ w = true then 1 else 0)
        torn := (s.part i).torn || (decide (sl.namesA i) && torn) } := by
  rw [dropA, dropRef_part, markTornIf_part]
  unfold Slot.namesA
  split
  · cases w <;> simp [Partition.dereferenced, *]
  · simp [*]

theorem dropA_part_lowered {s : State} {sl : Slot} (w torn : Bool) (h : sl.refs = .a) (i : Fin 16) :
    (dropA s sl w torn).part i = s.lowered sl w torn i := by
  simp [dropA_part, State.lowered, Slot.namesB, h]

/-- With both references held, each entry is lowered before any is freed. -/
theorem dropB_part_lowered {s : State} {sl : Slot} (w torn : Bool) (h : sl.refs = .ab) (i : Fin 16) :
    (dropRef (dropA s sl w torn) (refB sl.entry) false).part i = s.lowered sl w torn i := by
  rw [dropRef_part, dropA_part, State.lowered]
  simp only [Slot.namesB, h, true_and]
  split <;> simp [Partition.dereferenced, *]

/-- Every entry after the references of an ended descriptor are released (R8, R9, R18). -/
theorem releaseRefs_part (s : State) {sl : Slot} (w torn : Bool) (h : sl.refs ≠ .none) (i : Fin 16) :
    (releaseRefs s sl w torn).part i =
      if s.frees sl i then Partition.freed (s.part i).generation else s.lowered sl w torn i := by
  obtain hr | hr | hr := sl.refs.cases
  · exact absurd hr h
  · rw [releaseRefs_a hr, freeIfReleased_part, dropA_part_lowered w torn hr]
    simp [State.frees, Slot.namesB, State.lowered, hr]
  · rw [releaseRefs_ab hr, freeIfReleased_part, freeIfReleased_part, dropB_part_lowered w torn hr]
    by_cases hz : (s.part i).state = .releasing ∧ (s.lowered sl false false i).refs = 0
    · have hz' : (s.lowered sl w torn i).state = .releasing ∧ (s.lowered sl w torn i).refs = 0 := hz
      by_cases hA : sl.namesA i
      · have hfreed : ¬(Partition.freed (s.lowered sl w torn i).generation).state = .releasing := by
          simp [Partition.freed]
        rw [if_pos (c := s.frees sl i) ⟨.inl hA, hz⟩, if_pos (c := sl.namesA i ∧ _) ⟨hA, hz'⟩,
          if_neg (fun e => hfreed e.2.1)]
        rfl
      · rw [if_neg (c := sl.namesA i ∧ _) (fun e => hA e.1)]
        simp only [State.frees, Slot.namesB, hA, hr, hz, hz', true_and, and_true, false_or]
        rfl
    · have hn : ¬((s.lowered sl w torn i).state = .releasing ∧ (s.lowered sl w torn i).refs = 0) := hz
      rw [if_neg (c := s.frees sl i) (fun e => hz e.2), if_neg (c := sl.namesA i ∧ _) (fun e => hn e.2),
        if_neg (fun e => hn e.2)]

/-! ### A RELEASE_PARTITION that waits (R16, R17) -/

/-- The Admin Processor with the completion of a release handed over (R16). -/
def Admin.releaseDone (a : Admin) (c : AdminCommand) : Admin :=
  { a with command := some { c with wait := .none }, handover := some (adminCompletion c .ok 0) }

/-- The command in execution waits for no entry. -/
def Admin.awaitsNone (a : Admin) : Prop := ∀ c ∈ a.command, ∀ i, c.wait ≠ .references i

theorem waitsForRefs_of_awaitsNone {s : State} (h : s.admin.awaitsNone) (i : Fin 16) : waitsForRefs s i = false := by
  unfold waitsForRefs
  split
  · rename_i c hc
    simpa using h c hc i
  · rfl

theorem freeIfReleased_named {s : State} {r : BufferRef} {j : Fin 16} (hj : partitionIndex r.partition = some j) :
    freeIfReleased s r =
      if (s.part j).state = .releasing ∧ (s.part j).refs = 0 then
        if waitsForRefs s j then (freePart s j).handOverAdmin .ok 0 else freePart s j
      else s := by
  simp only [freeIfReleased, hj]
  rfl

theorem freeIfReleased_unnamed {s : State} {r : BufferRef} (h : partitionIndex r.partition = none) :
    freeIfReleased s r = s := by
  simp only [freeIfReleased, h]

theorem freeIfReleased_admin_of_awaitsNone {s : State} (h : s.admin.awaitsNone) (r : BufferRef) :
    (freeIfReleased s r).admin = s.admin := by
  cases hj : partitionIndex r.partition with
  | none => rw [freeIfReleased_unnamed hj]
  | some j =>
    rw [freeIfReleased_named hj, waitsForRefs_of_awaitsNone h]
    split <;> rfl

theorem handOverAdmin_admin {s : State} {c : AdminCommand} (hc : s.admin.command = some c) :
    (s.handOverAdmin .ok 0).admin = s.admin.releaseDone c := by
  simp only [State.handOverAdmin, hc, Admin.releaseDone]

/-- A command that waits for entry `i` completes where a reference to `i` frees it (R16). -/
theorem freeIfReleased_admin {s : State} {c : AdminCommand} {i : Fin 16} (hc : s.admin.command = some c)
    (hw : c.wait = .references i) (r : BufferRef) :
    (freeIfReleased s r).admin =
      if partitionIndex r.partition = some i ∧ (s.part i).state = .releasing ∧ (s.part i).refs = 0 then
        s.admin.releaseDone c
      else s.admin := by
  have hwait : ∀ j, waitsForRefs s j = decide (j = i) := fun j => by
    simp [waitsForRefs, hc, hw, eq_comm, beq_eq_decide]
  cases hj : partitionIndex r.partition with
  | none => simp [freeIfReleased_unnamed hj]
  | some j =>
    rw [freeIfReleased_named hj, hwait]
    by_cases hji : j = i
    · subst hji
      simp only [decide_true, if_true, true_and]
      split
      · exact handOverAdmin_admin (s := freePart s j) hc
      · rfl
    · simp only [hji, decide_false, Bool.false_eq_true, if_false, Option.some.injEq, false_and]
      split <;> rfl

theorem dropA_admin (s : State) (sl : Slot) (w torn : Bool) : (dropA s sl w torn).admin = s.admin := by
  have ht : (if torn then markTorn s (refA sl.entry) else s).admin = s.admin := by
    obtain ⟨ps, h⟩ := markTorn_eq s (refA sl.entry)
    split
    · rw [h]
    · rfl
  obtain ⟨ps, h⟩ := dropRef_eq (if torn then markTorn s (refA sl.entry) else s) (refA sl.entry) w
  rw [dropA, h, ht]

theorem dropRef_admin (s : State) (r : BufferRef) (w : Bool) : (dropRef s r w).admin = s.admin := by
  obtain ⟨ps, h⟩ := dropRef_eq s r w
  rw [h]

theorem releaseRefs_admin_of_awaitsNone {s : State} (h : s.admin.awaitsNone) (sl : Slot) (w torn : Bool) :
    (releaseRefs s sl w torn).admin = s.admin := by
  have hA : (dropA s sl w torn).admin.awaitsNone := by rwa [dropA_admin]
  have hB : (dropRef (dropA s sl w torn) (refB sl.entry) false).admin.awaitsNone := by rwa [dropRef_admin]
  obtain hr | hr | hr := sl.refs.cases
  · rw [releaseRefs_none hr]
  · rw [releaseRefs_a hr, freeIfReleased_admin_of_awaitsNone hA, dropA_admin]
  · have hF := freeIfReleased_admin_of_awaitsNone hB (refA sl.entry)
    rw [releaseRefs_ab hr, freeIfReleased_admin_of_awaitsNone (by rwa [hF]), hF, dropRef_admin, dropA_admin]

theorem releaseDone_awaitsNone (a : Admin) (c : AdminCommand) : (a.releaseDone c).awaitsNone := by
  intro d hd i
  simp only [Admin.releaseDone, Option.mem_def, Option.some.injEq] at hd
  subst hd
  simp

/-- A RELEASE_PARTITION that waits for entry `i` completes where the end frees `i`, and otherwise waits on (R16). -/
theorem releaseRefs_admin {s : State} {sl : Slot} {c : AdminCommand} {i : Fin 16} (w torn : Bool)
    (h : sl.refs ≠ .none) (hc : s.admin.command = some c) (hw : c.wait = .references i) :
    (releaseRefs s sl w torn).admin = if s.frees sl i then s.admin.releaseDone c else s.admin := by
  have hA : (dropA s sl w torn).admin.command = some c := by rw [dropA_admin, hc]
  obtain hr | hr | hr := sl.refs.cases
  · exact absurd hr h
  · rw [releaseRefs_a hr, freeIfReleased_admin hA hw, dropA_part_lowered w torn hr, dropA_admin]
    simp [State.frees, Slot.namesB, State.lowered, hr]
  · have hB : (dropRef (dropA s sl w torn) (refB sl.entry) false).admin = s.admin := by
      rw [dropRef_admin, dropA_admin]
    have h1 := freeIfReleased_admin (s := dropRef (dropA s sl w torn) (refB sl.entry) false) (by rwa [hB]) hw
      (refA sl.entry)
    rw [dropB_part_lowered w torn hr, hB] at h1
    have h2 := freeIfReleased_part (dropRef (dropA s sl w torn) (refB sl.entry) false) (refA sl.entry) i
    rw [dropB_part_lowered w torn hr] at h2
    rw [releaseRefs_ab hr]
    by_cases hf : sl.namesA i ∧ (s.lowered sl w torn i).state = .releasing ∧ (s.lowered sl w torn i).refs = 0
    · rw [if_pos hf] at h1
      rw [freeIfReleased_admin_of_awaitsNone (by rw [h1]; exact releaseDone_awaitsNone _ _), h1,
        if_pos ⟨.inl hf.1, hf.2⟩]
    · rw [if_neg hf] at h1 h2
      rw [freeIfReleased_admin (by rwa [h1]) hw, h1, h2]
      refine if_congr ?_ rfl rfl
      constructor
      · exact fun e => ⟨.inr ⟨hr, e.1⟩, e.2⟩
      · rintro ⟨hA' | hB', e⟩
        · exact absurd ⟨hA', e⟩ hf
        · exact ⟨hB'.2, e⟩

theorem releaseRefs_frame (s : State) (sl : Slot) (w torn : Bool) :
    releaseRefs s sl w torn =
      { s with
        partitions := (releaseRefs s sl w torn).partitions, admin := (releaseRefs s sl w torn).admin } := by
  obtain ⟨ps, a, h⟩ := releaseRefs_eq s sl w torn
  rw [h]

/-- Settles O20: entry by entry, then the Admin Processor by what its command waits for. -/
theorem referencesReleasedAtEnd : Obligations.ReferencesReleasedAtEnd := by
  intro s sl w torn hrefs
  have hnames : ∀ i, (s.frees sl i ↔
      ((refA sl.entry).partition.toNat = i.val ∨ sl.refs = .ab ∧ (refB sl.entry).partition.toNat = i.val) ∧
        (s.part i).state = .releasing ∧
          (s.part i).refs - (if (refA sl.entry).partition.toNat = i.val then 1 else 0) -
            (if sl.refs = .ab ∧ (refB sl.entry).partition.toNat = i.val then 1 else 0) = 0) := fun i => by
    simp only [State.frees, State.lowered, Slot.namesA, Slot.namesB, partitionIndex_eq_some]
  refine ⟨fun i => ?_, releaseRefs_frame s sl w torn, fun h => ?_, fun c hc i hw hf => ?_⟩
  · rw [releaseRefs_part s w torn hrefs]
    refine (if_congr (hnames i) rfl ?_)
    simp only [State.lowered, Slot.namesA, Slot.namesB, partitionIndex_eq_some]
  · by_cases hn : s.admin.awaitsNone
    · exact releaseRefs_admin_of_awaitsNone hn sl w torn
    · simp only [Admin.awaitsNone, not_forall, ne_eq, not_not] at hn
      obtain ⟨c, hc, i, hw⟩ := hn
      rw [releaseRefs_admin w torn hrefs hc hw]
      exact if_neg fun e => h c hc i hw ((hnames i).mp e)
  · rw [releaseRefs_admin w torn hrefs hc hw]
    exact if_pos ((hnames i).mpr hf)

end Sys2Proof.Machine
end

section
/-! SUPPORT. The end happening: the channel, the slot and the working record after a descriptor ends (R36, R38, R69, R70,
R75, R157). -/

-- One theorem at a time, as in the tests above: fewer threads than the memory limit allows.
set_option Elab.async false

namespace Sys2Proof.Machine

/-! ### The end happening (R69) -/

/-- The descriptor is of a write kind (R50); an undefined kind is not. -/
def Slot.writes (sl : Slot) : Bool := ((descKind sl.entry).map Kind.writes).getD false

theorem endReferences_eq (s : State) (sl : Slot) (st : Status) :
    endReferences s sl st = releaseRefs s sl sl.writes (tearsPartition sl st) := by
  unfold endReferences Slot.writes
  cases descKind sl.entry <;> rfl

theorem tearsPartition_iff (sl : Slot) (st : Status) :
    tearsPartition sl st = true ↔
      sl.writes = true ∧ st ≠ .ok ∧ 0 < sl.bytesDone ∧ sl.bytesDone < descLength sl.entry := by
  unfold tearsPartition Slot.writes
  cases descKind sl.entry <;> simp [and_assoc]

theorem harmless_eq_false {st : Status} : st.harmless = false ↔ st ≠ .ok ∧ st ≠ .markBroken := by
  simp [Status.harmless]

/-- Under SILENT the end happening releases the references and clears the slot (R75). -/
theorem endSlot_silent {s : State} {k : Fin 4} (st : Status) (h : (s.slot k).stop = .silent) :
    endSlot s k st = (endReferences s (s.slot k) st).setSlot k Slot.none := by
  simp only [endSlot, h, if_true]

theorem endSlot_loud {s : State} {k : Fin 4} (st : Status) (h : (s.slot k).stop ≠ .silent) :
    endSlot s k st = (endInChannel (endReferences s (s.slot k) st) (s.slot k) st).setSlot k Slot.none := by
  simp only [endSlot, h, if_false]

/-- The State Controller after a descriptor in a slot ends: one that a drain terminated is counted (R157). -/
def Controller.noted (c : Controller) (sl : Slot) (st : Status) : Controller :=
  if c.op = .draining ∧ st = .terminated then
    { c with
      working :=
        { c.working with
          channels :=
            c.working.channels.set sl.chan
              { c.working.channels.get sl.chan with
                terminated := (c.working.channels.get sl.chan).terminated + 1
                slotDesc := some (recordTag sl.entry, sl.bytesDone) } } }
  else c

/-- The channel after its descriptor in a slot ends (R36, R38, R69, R70). -/
def Channel.endedIn (c : Channel) (sl : Slot) (st : Status) : Channel :=
  { c.ended st with held := c.held ++ [slotCompletion sl st], slot := Option.none }

theorem noteTerminated_noted (s : State) (sl : Slot) (st : Status) :
    noteTerminated s sl st = { s with ctl := s.ctl.noted sl st } := by
  unfold noteTerminated Controller.noted
  simp only
  split <;> rfl

theorem endInChannel_frame (s : State) (sl : Slot) (st : Status) :
    endInChannel s sl st =
      { s with
        channels := s.channels.set sl.chan ((s.chan sl.chan).endedIn sl st), ctl := s.ctl.noted sl st } := by
  unfold endInChannel
  rw [noteTerminated_noted]
  rfl

/-- The end happening, given as one replacement of fields. -/
theorem endSlot_frame (s : State) (k : Fin 4) (st : Status) :
    endSlot s k st =
      { s with
        partitions := (releaseRefs s (s.slot k) (s.slot k).writes (tearsPartition (s.slot k) st)).partitions
        admin := (releaseRefs s (s.slot k) (s.slot k).writes (tearsPartition (s.slot k) st)).admin
        channels :=
          if (s.slot k).stop = .silent then s.channels
          else s.channels.set (s.slot k).chan ((s.chan (s.slot k).chan).endedIn (s.slot k) st)
        ctl := if (s.slot k).stop = .silent then s.ctl else s.ctl.noted (s.slot k) st
        slots := s.slots.set k Slot.none } := by
  have hr := releaseRefs_frame s (s.slot k) (s.slot k).writes (tearsPartition (s.slot k) st)
  by_cases h : (s.slot k).stop = .silent
  · rw [endSlot_silent st h, endReferences_eq, hr, if_pos h, if_pos h]
    rfl
  · rw [endSlot_loud st h, endReferences_eq, hr, if_neg h, if_neg h, endInChannel_frame]
    rfl

theorem endSlot_chan (s : State) (k : Fin 4) (st : Status) (d : Fin 16) :
    (endSlot s k st).chan d =
      if (s.slot k).stop ≠ .silent ∧ d = (s.slot k).chan then (s.chan (s.slot k).chan).endedIn (s.slot k) st
      else s.chan d := by
  rw [endSlot_frame]
  by_cases h : (s.slot k).stop = .silent
  · simp only [State.chan, h, if_true, ne_eq, not_true, false_and, if_false]
  · simp only [State.chan, h, if_false, get_set, ne_eq, not_false_iff, true_and]

theorem endSlot_slot (s : State) (k : Fin 4) (st : Status) (j : Fin 4) :
    (endSlot s k st).slot j = if j = k then Slot.none else s.slot j := by
  rw [endSlot_frame]
  exact get_set _ _ _ _

/-- Settles O21: `endSlot_frame`, part by part. -/
theorem endHappening : Obligations.EndHappening := by
  intro s k st
  have hf := endSlot_frame s k st
  refine ⟨tearsPartition_iff _ st, by rw [hf]; rfl, by rw [hf]; rfl, ?_, fun j hj => ?_, fun d hd => ?_, fun h => ?_,
    fun h => ?_, ?_, by rw [hf], by rw [hf], by rw [hf], by rw [hf], by rw [hf], by rw [hf]⟩
  · rw [endSlot_slot, if_pos rfl]
  · rw [endSlot_slot, if_neg hj]
  · rw [endSlot_chan, if_neg (fun e => hd e.2)]
  · rw [endSlot_chan, if_neg (fun e => e.1 h)]
  · rw [endSlot_chan, if_pos ⟨h, rfl⟩]
    simp only [Channel.endedIn, Channel.ended, harmless_eq_false, and_assoc]
    rfl
  · rw [hf]
    by_cases h : (s.slot k).stop = .silent
    · exact (if_pos h).trans (if_neg fun e => e.1 h).symm
    · exact (if_neg h).trans (if_congr (by simp only [h, ne_eq, not_false_iff, true_and]) rfl rfl)

end Sys2Proof.Machine
end

section
/-! SUPPORT. What a presentation ends or begins (R6, R51, R52, R57 to R62). -/

-- One theorem at a time, as in the tests above: fewer threads than the memory limit allows.
set_option Elab.async false

namespace Sys2Proof.Machine

/-! ### A refused presentation (R51, R52) -/

theorem freeIfReleased_setSlot (s : State) (k : Fin 4) (y : Slot) (r : BufferRef) :
    freeIfReleased (s.setSlot k y) r = (freeIfReleased s r).setSlot k y := by
  cases hj : partitionIndex r.partition with
  | none => rw [freeIfReleased_unnamed hj, freeIfReleased_unnamed hj]
  | some j =>
    rw [freeIfReleased_named hj, freeIfReleased_named hj]
    have hover : ∀ t : State, (t.setSlot k y).handOverAdmin .ok 0 = (t.handOverAdmin .ok 0).setSlot k y := fun t => by
      unfold State.handOverAdmin
      simp only [State.setSlot]
      split <;> rfl
    have hfree : freePart (s.setSlot k y) j = (freePart s j).setSlot k y := rfl
    have hpart : (s.setSlot k y).part j = s.part j := rfl
    have hwait : waitsForRefs (s.setSlot k y) j = waitsForRefs s j := rfl
    rw [hfree, hover, hpart, hwait]
    split_ifs <;> rfl

theorem dropRef_setSlot (s : State) (k : Fin 4) (y : Slot) (r : BufferRef) (w : Bool) :
    dropRef (s.setSlot k y) r w = (dropRef s r w).setSlot k y := by
  unfold dropRef
  cases partitionIndex r.partition <;> rfl

theorem dropA_setSlot (s : State) (k : Fin 4) (y sl : Slot) (w torn : Bool) :
    dropA (s.setSlot k y) sl w torn = (dropA s sl w torn).setSlot k y := by
  have hmark : markTorn (s.setSlot k y) (refA sl.entry) = (markTorn s (refA sl.entry)).setSlot k y := by
    unfold markTorn
    cases partitionIndex (refA sl.entry).partition <;> rfl
  cases torn with
  | false => exact dropRef_setSlot s k y _ w
  | true => simp only [dropA, if_true, hmark, dropRef_setSlot]

/-- The release of references reads no slot of the state. -/
theorem releaseRefs_setSlot (s : State) (k : Fin 4) (y sl : Slot) (w torn : Bool) :
    releaseRefs (s.setSlot k y) sl w torn = (releaseRefs s sl w torn).setSlot k y := by
  obtain h | h | h := sl.refs.cases
  · rw [releaseRefs_none h, releaseRefs_none h]
  · rw [releaseRefs_a h, releaseRefs_a h, dropA_setSlot, freeIfReleased_setSlot]
  · rw [releaseRefs_ab h, releaseRefs_ab h, dropA_setSlot, dropRef_setSlot, freeIfReleased_setSlot,
      freeIfReleased_setSlot]

theorem setSlot_setSlot (s : State) (k : Fin 4) (x y : Slot) : (s.setSlot k x).setSlot k y = s.setSlot k y := by
  simp only [State.setSlot, Vector.set_set]

/-- The slot that a refusal leaves ENDING, before its end happening (R51). -/
def Slot.refusing (sl : Slot) (st : Status) : Slot := { sl with state := .ending, cause := .status st }

/-- The end happening does not depend on the state and the end cause that the slot leaves (R51). -/
theorem refuseSlot_eq_endSlot (s : State) (k : Fin 4) (st : Status) : refuseSlot s k st = endSlot s k st := by
  have hs : (s.setSlot k ((s.slot k).refusing st)).slot k = (s.slot k).refusing st :=
    (get_set _ _ _ _).trans (if_pos rfl)
  show endSlot (s.setSlot k ((s.slot k).refusing st)) k st = _
  have href : endReferences (s.setSlot k ((s.slot k).refusing st)) ((s.slot k).refusing st) st =
      (endReferences s (s.slot k) st).setSlot k ((s.slot k).refusing st) := by
    rw [endReferences_eq, endReferences_eq, releaseRefs_setSlot]
    rfl
  have hchan : ∀ t : State,
      endInChannel (t.setSlot k ((s.slot k).refusing st)) ((s.slot k).refusing st) st =
        (endInChannel t (s.slot k) st).setSlot k ((s.slot k).refusing st) := fun t => by
    rw [endInChannel_frame, endInChannel_frame]
    rfl
  by_cases h : (s.slot k).stop = .silent
  · rw [endSlot_silent st h, endSlot_silent st (by rw [hs]; exact h), hs, href, setSlot_setSlot]
  · rw [endSlot_loud st h, endSlot_loud st (by rw [hs]; exact h), hs, href, hchan, setSlot_setSlot]

theorem endSlot_entryLaw {s : State} (h : s.EntryLaw) (k : Fin 4) (st : Status) : (endSlot s k st).EntryLaw := by
  have hop : ∀ (c : Controller) (sl : Slot), (c.noted sl st).op = c.op := fun c sl => by
    unfold Controller.noted
    split <;> rfl
  intro hp
  rw [endSlot_frame] at hp ⊢
  show (if (s.slot k).stop = .silent then s.ctl else s.ctl.noted (s.slot k) st).op = .draining
  split
  · exact h hp
  · exact (hop _ _).trans (h hp)

/-! ### The tests of a presentation (R6, R52) -/

theorem presentationStatus_a {s : State} {r : Record} {k : Kind} {c : Fin 16} {st : Status}
    (h : checkRef s (refA r) c k.writes (descLength r) = some st) : presentationStatus s r k c = some st := by
  simp only [presentationStatus, h]

theorem presentationStatus_single {s : State} {r : Record} {k : Kind} {c : Fin 16}
    (h : checkRef s (refA r) c k.writes (descLength r) = none) (hk : k ≠ .copy) :
    presentationStatus s r k c = none := by
  simp only [presentationStatus, h, hk, if_false]

theorem presentationStatus_b {s : State} {r : Record} {k : Kind} {c : Fin 16} {st : Status}
    (ha : checkRef s (refA r) c k.writes (descLength r) = none) (hk : k = .copy)
    (hb : checkRef s (refB r) c false (descLength r) = some st) : presentationStatus s r k c = some st := by
  simp only [presentationStatus, ha, hb, if_pos hk]

theorem presentationStatus_meet {s : State} {r : Record} {k : Kind} {c : Fin 16}
    (ha : checkRef s (refA r) c k.writes (descLength r) = none) (hk : k = .copy)
    (hb : checkRef s (refB r) c false (descLength r) = none) :
    presentationStatus s r k c =
      if rangesMeet (refAddress s (refA r)) (refAddress s (refB r)) (descLength r) then some .overlap else none := by
  simp only [presentationStatus, ha, hb, if_pos hk]

/-! ### References taken (R6) -/

theorem takeRef_part_counts (s : State) (r : BufferRef) (w : Bool) (i : Fin 16) :
    (takeRef s r w).part i =
      { s.part i with
        refs := (s.part i).refs + (if r.partition.toNat = i.val then 1 else 0)
        writeRefs := (s.part i).writeRefs + (if r.partition.toNat = i.val ∧ w = true then 1 else 0) } := by
  rw [takeRef_part]
  simp only [partitionIndex_eq_some]
  split
  · cases w <;> simp [Partition.referenced, *]
  · simp [*]

theorem takeRefs_part (s : State) (r : Record) (k : Kind) (i : Fin 16) :
    (takeRefs s r k).part i =
      { s.part i with
        refs :=
          (s.part i).refs + (if (refA r).partition.toNat = i.val then 1 else 0) +
            (if k = .copy ∧ (refB r).partition.toNat = i.val then 1 else 0)
        writeRefs :=
          (s.part i).writeRefs + (if (refA r).partition.toNat = i.val ∧ k.writes = true then 1 else 0) } := by
  unfold takeRefs
  by_cases hc : k = .copy
  · rw [if_pos hc, takeRef_part_counts, takeRef_part_counts]
    simp [hc]
  · rw [if_neg hc, takeRef_part_counts]
    simp [hc]

/-- The references of a descriptor taken: nothing but the table changes, entry by entry. -/
theorem takeRefs_frame (s : State) (r : Record) (k : Kind) :
    takeRefs s r k = { s with partitions := tabulate 16 (takeRefs s r k).part } := by
  obtain ⟨ps, h⟩ := takeRefs_eq s r k
  have htab : tabulate 16 (State.part { s with partitions := ps }) = ps := tabulate_of_get ps
  rw [h, htab]

/-! ### The first operation of a descriptor's run (R54, R57 to R62) -/

/-- The addresses of a descriptor's ranges are given by the bases in the table. -/
theorem refAddress_congr {s t : State} (h : ∀ i, (t.part i).base = (s.part i).base) : refAddress t = refAddress s := by
  funext g
  simp only [refAddress, h]

theorem beginPiece_congr {s t : State} (h : refAddress t = refAddress s) (sl : Slot) :
    beginPiece t sl = beginPiece s sl := by
  simp only [beginPiece, beginFill, beginRead, beginWrite, pieceLength, rangeA, rangeB, h]

theorem runSlot_begins {s : State} {k : Fin 4} (hd : (s.slot k).bytesDone < descLength (s.slot k).entry)
    (hp : (s.slot k).port = .none) (ho : (s.slot k).ops = []) :
    runSlot s k = s.setSlot k (beginPiece s (s.slot k)) := by
  simp only [runSlot, Nat.not_le.mpr hd, hp, ho, if_true, if_false]

theorem advanceSlot_run {s : State} {k : Fin 4} (h : (s.slot k).state = .run) : advanceSlot s k = runSlot s k := by
  simp only [advanceSlot, h]

/-- Where every test passes, the slot takes its references, enters RUN and begins its first piece (R6, R52). -/
theorem enterRun_begins {s : State} {k : Fin 4} {kind : Kind} (hlen : 1 ≤ descLength (s.slot k).entry)
    (hd : (s.slot k).bytesDone = 0) (ho : (s.slot k).ops = []) (hp : (s.slot k).port = .none) :
    enterRun s k kind =
      (takeRefs s (s.slot k).entry kind).setSlot k
        (beginPiece s { s.slot k with state := .run, refs := if kind = .copy then .ab else .a }) := by
  have hbase : ∀ y, refAddress ((takeRefs s (s.slot k).entry kind).setSlot k y) = refAddress s := fun y =>
    refAddress_congr fun i => by
      show ((takeRefs s (s.slot k).entry kind).part i).base = _
      rw [takeRefs_part]
  generalize hy : ({ s.slot k with state := .run, refs := if kind = .copy then .ab else .a } : Slot) = y
  have hslot : ((takeRefs s (s.slot k).entry kind).setSlot k y).slot k = y := (get_set _ _ _ _).trans (if_pos rfl)
  rw [enterRun, hy, advanceSlot_run (by rw [hslot, ← hy]), runSlot_begins, hslot]
  · rw [beginPiece_congr (hbase y), setSlot_setSlot]
  · rw [hslot, ← hy]
    show (s.slot k).bytesDone < descLength (s.slot k).entry
    omega
  · rw [hslot, ← hy, ← hp]
  · rw [hslot, ← hy, ← ho]

/-- The request of the piece at position 0 for a burst read from an address (R59, R60, R62). -/
abbrev Slot.firstRead (sl : Slot) (addr n : Nat) : Slot :=
  { sl with ops := [{ kind := .read, pos := 0, addr := addr, len := n }], port := .waiting, nextPiece := n }

/-- The request of the piece at position 0 of a FILL, with its pattern (R61). -/
abbrev Slot.firstFill (sl : Slot) (addr n : Nat) : Slot :=
  { sl with
    inHand := [{ pos := 0, data := (List.range n).map fun j => (longAt sl.entry 40).extractLsb' (8 * (j % 8)) 8 }]
    ops := writeOps 0 addr n
    port := .waiting
    nextPiece := n }

theorem beginRead_first (s : State) {sl : Slot} (addr : Nat) (hn : sl.nextPiece = 0) :
    beginRead s sl addr = sl.firstRead addr (pieceLength s sl 0) := by
  simp only [beginRead, hn, Nat.zero_add, Nat.add_zero]

theorem beginFill_first (s : State) {sl : Slot} (hd : sl.bytesDone = 0) (hn : sl.nextPiece = 0) :
    beginFill s sl = sl.firstFill (rangeA s sl) (pieceLength s sl 0) := by
  simp only [Slot.firstFill, beginFill, beginWrite, hd, hn, if_true, patternBytes, patternByte, descPattern,
    List.length_map, List.length_range, Nat.zero_add, Nat.add_zero]
  rfl

/-! ### PRESENTATION -/

theorem exec_presentation_refused {s : State} {k : Fin 4} {kind : Kind} {st : Status} (hc : s.power.core = true)
    (hs : (s.slot k).state = .check) (hk : descKind (s.slot k).entry = some kind)
    (h : presentationStatus s (s.slot k).entry kind (s.slot k).chan = some st) :
    exec (.presentation k) s = .next (conclude (endSlot s k st)) := by
  show execPresentation k s = _
  simp only [execPresentation, hc, hs, hk, h, refuseSlot_eq_endSlot, Bool.true_eq_false, ne_eq, not_true, or_self,
    if_false]

theorem exec_presentation_run {s : State} {k : Fin 4} {kind : Kind} (hc : s.power.core = true)
    (hs : (s.slot k).state = .check) (hk : descKind (s.slot k).entry = some kind)
    (h : presentationStatus s (s.slot k).entry kind (s.slot k).chan = none) :
    exec (.presentation k) s = .next (conclude (enterRun s k kind)) := by
  show execPresentation k s = _
  simp only [execPresentation, hc, hs, hk, h, Bool.true_eq_false, ne_eq, not_true, or_self, if_false]

/-- Settles O49: the tests of the Partition Table in order, then the first piece of the descriptor's kind. -/
theorem presentationAnswered : Obligations.PresentationAnswered := by
  intro s k kind hcore he sl r len a b copy meets named hst hkind hmark
  have refused : ∀ st, presentationStatus s r kind sl.chan = some st →
      Concludes (.presentation k) s (endSlot s k st) := fun st h =>
    concludes_of_next (exec_presentation_refused hcore hst hkind h) (endSlot_entryLaw he k st)
  have hmeets : rangesMeet (refAddress s (refA r)) (refAddress s (refB r)) len = true ↔ meets := by
    simp only [rangesMeet, Bool.and_eq_true, decide_eq_true_eq]
    rfl
  refine ⟨fun st ha => refused st ?_, fun ha hc st hb => refused st ?_, fun ha hc hb hm => refused .overlap ?_,
    fun ha hpass hlen hd hn hih ho hp => ?_⟩
  · exact presentationStatus_a ha
  · exact presentationStatus_b ha hc hb
  · rw [presentationStatus_meet ha hc hb, if_pos (hmeets.mpr hm)]
  · have hnone : presentationStatus s r kind sl.chan = none := by
      by_cases hc : kind = .copy
      · rw [presentationStatus_meet ha hc (hpass hc).1, if_neg (mt hmeets.mp (hpass hc).2)]
      · exact presentationStatus_single ha hc
    intro n run reads next
    have hnext : beginPiece s run = next := by
      have hkind' : descKind run.entry = some kind := hkind
      cases kind with
      | writeIn =>
        simp only [beginPiece, hkind', beginWrite]
        rw [show run.inHand = [] from hih]
      | mark => exact absurd rfl hmark
      | fill =>
        simp only [beginPiece, hkind']
        exact beginFill_first s hd hn
      | readOut | checksum | copy =>
        simp only [beginPiece, hkind']
        exact beginRead_first s _ hn
    have hpart := funext (takeRefs_part s r kind)
    refine concludes_of_next ((exec_presentation_run hcore hst hkind hnone).trans ?_) he
    rw [enterRun_begins hlen hd ho hp, ← hnext, takeRefs_frame, hpart]

end Sys2Proof.Machine
end

section
/-! SUPPORT. Slots left under SILENT (R71 to R75): what each slot becomes, the reads it orphans, and what the table
loses. -/

-- One theorem at a time, as in the tests above: fewer threads than the memory limit allows.
set_option Elab.async false

namespace Sys2Proof.Machine

/-! ### One slot under SILENT (R72 to R75) -/

/-- The second slot holds what the first held, and stays at work, under SILENT, only if the first was at work. -/
def Slot.LeftTo (x y : Slot) : Prop :=
  (x.state = .idle ∧ y = x) ∨
    ((x.state = .run ∨ x.state = .ending) ∧ y.state = .ending ∧ y.stop = .silent ∧ y.entry = x.entry ∧ y.refs = x.refs ∧
      y.bytesDone = x.bytesDone)

/-- What SILENT leaves of a slot: what it held, or an IDLE slot (R75). -/
def Slot.SilencedTo (x y : Slot) : Prop := x.LeftTo y ∨ x.state ≠ .idle ∧ y = Slot.none

theorem Slot.LeftTo.holds {x y : Slot} (h : x.LeftTo y) : y.entry = x.entry ∧ y.refs = x.refs := by
  obtain ⟨-, rfl⟩ | ⟨-, -, -, he, hr, -⟩ := h
  · exact ⟨rfl, rfl⟩
  · exact ⟨he, hr⟩

theorem Slot.SilencedTo.not_run {x y : Slot} (h : x.SilencedTo y) : y.state ≠ .run := by
  obtain (⟨hx, rfl⟩ | ⟨-, hy, -⟩) | ⟨-, rfl⟩ := h
  · simp [hx]
  · simp [hy]
  · simp [Slot.none]

/-- The state in which a stop request ends or leaves slot `k`: its reads are orphaned where it is in RUN (R71). -/
def State.orphaning (s : State) (k : Fin 4) : State := if (s.slot k).state = .run then orphanReads s k else s

theorem endSlot_setSlot_silent (s : State) (k : Fin 4) {x y : Slot} (st : Status) (hy : y.stop = .silent)
    (he : y.entry = x.entry) (hr : y.refs = x.refs) :
    ∃ torn, endSlot (s.setSlot k y) k st = (releaseRefs s x x.writes torn).setSlot k Slot.none := by
  have hs : (s.setSlot k y).slot k = y := (get_set _ _ _ _).trans (if_pos rfl)
  refine ⟨tearsPartition y st, ?_⟩
  have hsame : releaseRefs s y y.writes (tearsPartition y st) = releaseRefs s x x.writes (tearsPartition y st) := by
    unfold releaseRefs Slot.writes
    rw [he, hr]
  rw [endSlot_silent st (by rw [hs]; exact hy), hs, endReferences_eq, releaseRefs_setSlot, setSlot_setSlot, hsame]

theorem beginWrite_holds (s : State) (sl : Slot) :
    (beginWrite s sl).state = sl.state ∧ (beginWrite s sl).stop = sl.stop ∧ (beginWrite s sl).entry = sl.entry ∧
      (beginWrite s sl).refs = sl.refs ∧ (beginWrite s sl).bytesDone = sl.bytesDone := by
  unfold beginWrite
  split
  · exact ⟨rfl, rfl, rfl, rfl, rfl⟩
  · split <;> exact ⟨rfl, rfl, rfl, rfl, rfl⟩

theorem trimDeliveries_holds (sl : Slot) :
    (trimDeliveries sl).stop = sl.stop ∧ (trimDeliveries sl).entry = sl.entry ∧ (trimDeliveries sl).refs = sl.refs ∧
      (trimDeliveries sl).bytesDone = sl.bytesDone := by
  unfold trimDeliveries
  split
  · exact ⟨rfl, rfl, rfl, rfl⟩
  all_goals split <;> exact ⟨rfl, rfl, rfl, rfl⟩

/-- A slot in RUN that is given SILENT finishes its deliveries, or ends. -/
theorem finishSlot_setSlot_silent (s : State) (k : Fin 4) {x y : Slot} (hx : x.state = .run) (hst : y.state = .ending)
    (hstop : y.stop = .silent) (he : y.entry = x.entry) (hr : y.refs = x.refs) (hd : y.bytesDone = x.bytesDone) :
    (∃ z, x.LeftTo z ∧ finishSlot (s.setSlot k y) k = s.setSlot k z) ∨
      ∃ torn, finishSlot (s.setSlot k y) k = (releaseRefs s x x.writes torn).setSlot k Slot.none := by
  have hs : (s.setSlot k y).slot k = y := (get_set _ _ _ _).trans (if_pos rfl)
  unfold finishSlot
  simp only [hs]
  split
  · exact .inl ⟨y, .inr ⟨.inl hx, hst, hstop, he, hr, hd⟩, rfl⟩
  · split
    · exact .inl ⟨{ y with port := .waiting }, .inr ⟨.inl hx, hst, hstop, he, hr, hd⟩, setSlot_setSlot _ _ _ _⟩
    · split
      · obtain ⟨h1, h2, h3, h4, h5⟩ := beginWrite_holds (s.setSlot k y) y
        exact .inl ⟨_, .inr ⟨.inl hx, h1.trans hst, h2.trans hstop, h3.trans he, h4.trans hr, h5.trans hd⟩,
          setSlot_setSlot _ _ _ _⟩
      · exact .inr (endSlot_setSlot_silent s k _ hstop he hr)

theorem setSlot_self (s : State) (k : Fin 4) : s.setSlot k (s.slot k) = s := by
  have h : s.slots.set k (s.slot k) = s.slots := vector_ext_get fun j => by
    rw [get_set]
    split
    · subst_vars; rfl
    · rfl
  simp only [State.setSlot, h]

theorem stopSlot_idle {s : State} {k : Fin 4} (q : StopRequest) (h : (s.slot k).state = .idle) :
    stopSlot s k q = s := by
  simp only [stopSlot, h]

theorem stopSlot_check {s : State} {k : Fin 4} (q : StopRequest) (h : (s.slot k).state = .check) :
    stopSlot s k q =
      endSlot (s.setSlot k { s.slot k with state := .ending, cause := q.cause, stop := q }) k
        (Slot.status { s.slot k with cause := q.cause }) := by
  simp only [stopSlot, h]

theorem stopSlot_run {s : State} {k : Fin 4} (q : StopRequest) (h : (s.slot k).state = .run) :
    stopSlot s k q = leaveRun s k { s.slot k with cause := q.cause, stop := q } := by
  simp only [stopSlot, h]

theorem stopSlot_ending {s : State} {k : Fin 4} (q : StopRequest) (h : (s.slot k).state = .ending) :
    stopSlot s k q =
      s.setSlot k
        { s.slot k with
          stop := (s.slot k).stop.after q
          cause := if (s.slot k).stop = .silent then (s.slot k).cause else (s.slot k).cause.after q } := by
  simp only [stopSlot, h]

/-- A slot given SILENT keeps what it holds, or releases its references and becomes IDLE (R72 to R75). -/
theorem stopSlot_silent (s : State) (k : Fin 4) :
    (∃ y, (s.slot k).LeftTo y ∧ stopSlot s k .silent = (s.orphaning k).setSlot k y) ∨
      (s.slot k).state ≠ .idle ∧
        ∃ torn, stopSlot s k .silent =
          (releaseRefs (s.orphaning k) (s.slot k) (s.slot k).writes torn).setSlot k Slot.none := by
  have hkept : (s.slot k).state ≠ .run → s.orphaning k = s := fun h => if_neg h
  cases h : (s.slot k).state with
  | idle =>
    refine .inl ⟨s.slot k, .inl ⟨h, rfl⟩, ?_⟩
    rw [hkept (by simp [h]), stopSlot_idle _ h, setSlot_self]
  | check =>
    rw [hkept (by simp [h]), stopSlot_check _ h]
    exact .inr ⟨by decide, endSlot_setSlot_silent s k _ rfl rfl rfl⟩
  | run =>
    let y : Slot := { s.slot k with cause := StopRequest.silent.cause, stop := .silent }
    obtain ⟨h1, h2, h3, h4⟩ := trimDeliveries_holds y
    rw [show s.orphaning k = orphanReads s k from if_pos h, stopSlot_run _ h]
    exact (finishSlot_setSlot_silent (y := { trimDeliveries y with state := .ending }) (orphanReads s k) k h rfl h1 h2
      h3 h4).imp_right fun e => ⟨by decide, e⟩
  | ending =>
    rw [hkept (by simp [h]), stopSlot_ending _ h]
    have hstop : (s.slot k).stop.after .silent = .silent := by
      unfold StopRequest.after
      split <;> rfl
    refine .inl ⟨_, ?_, rfl⟩
    exact .inr ⟨.inr h, h, hstop, rfl, rfl, rfl⟩

/-! ### The slots of a list under SILENT -/

/-- The tag, orphaned where a slot of the list, in RUN, waits for its read (R71). -/
def State.orphanedTag (s : State) (l : List (Fin 4)) (g : Fin 16) : Tag :=
  { s.tag g with
    orphan :=
      (s.tag g).orphan ||
        decide ((s.tag g).state = .waiting ∧ ∃ k ∈ l, (s.tag g).holder = .slot k ∧ (s.slot k).state = .run) }

/-- The reference counts are the numbers of references that slots hold (R6). -/
def State.Counted (s : State) : Prop := ∀ i, (s.part i).refs = ∑ k, s.refsOf i k

/-- The second entry is the first with references of ended descriptors released (R8, R9, R18). -/
def Partition.ReleasedTo (p q : Partition) : Prop :=
  (p.state = .releasing ∧ q = Partition.freed p.generation) ∨
    (q = { p with refs := q.refs, writeRefs := q.writeRefs, torn := q.torn } ∧ q.refs ≤ p.refs ∧
      q.writeRefs ≤ p.writeRefs ∧ (p.torn = true → q.torn = true))

theorem Partition.ReleasedTo.refl (p : Partition) : p.ReleasedTo p := .inr ⟨rfl, le_rfl, le_rfl, id⟩

theorem Partition.ReleasedTo.trans {p q r : Partition} (h : p.ReleasedTo q) (hr : q.ReleasedTo r)
    (hz : q.refs = 0 → r = q) : p.ReleasedTo r := by
  obtain ⟨hs, rfl⟩ | ⟨hq, h1, h2, h3⟩ := h
  · exact .inl ⟨hs, hz rfl⟩
  · have hstate : q.state = p.state := by rw [hq]
    have hgen : q.generation = p.generation := by rw [hq]
    obtain ⟨hs, rfl⟩ | ⟨hr, h1', h2', h3'⟩ := hr
    · exact .inl ⟨hstate ▸ hs, by rw [hgen]⟩
    · refine .inr ⟨?_, h1'.trans h1, h2'.trans h2, fun e => h3' (h3 e)⟩
      rw [hq] at hr
      exact hr

/-- The second state is the first after the slots of a list were given SILENT (R71, R75). -/
structure State.SilencedOn (s t : State) (l : List (Fin 4)) : Prop where
  frame : t = { s with partitions := t.partitions, slots := t.slots, link := { s.link with tags := t.link.tags } }
  slots : ∀ k ∈ l, (s.slot k).SilencedTo (t.slot k)
  others : ∀ k ∉ l, t.slot k = s.slot k
  tags : ∀ g, t.tag g = s.orphanedTag l g
  parts : ∀ i, (∀ k ∈ l, s.refsOf i k = 0) → t.part i = s.part i
  counted : s.Counted → t.Counted ∧ ∀ i, (s.part i).ReleasedTo (t.part i)

theorem refsOf_congr {s t : State} {k : Fin 4} (he : (t.slot k).entry = (s.slot k).entry)
    (hr : (t.slot k).refs = (s.slot k).refs) (i : Fin 16) : t.refsOf i k = s.refsOf i k := by
  simp only [State.refsOf, he, hr]

theorem counted_refs_zero {s : State} (h : s.Counted) {i : Fin 16} (hz : (s.part i).refs = 0) (k : Fin 4) :
    s.refsOf i k = 0 := by
  rw [h i, Finset.sum_eq_zero_iff] at hz
  exact hz k (Finset.mem_univ k)

theorem State.SilencedOn.nil (s : State) : s.SilencedOn s [] where
  frame := rfl
  slots := by simp
  others := fun _ _ => rfl
  tags := fun g => by simp [State.orphanedTag]
  parts := fun _ _ => rfl
  counted := fun h => ⟨h, fun _ => .refl _⟩

theorem State.SilencedOn.cons {s t u : State} {k : Fin 4} {l : List (Fin 4)} (h : s.SilencedOn t [k])
    (h' : t.SilencedOn u l) (hk : k ∉ l) : s.SilencedOn u (k :: l) := by
  have hslot : ∀ j ∈ l, t.slot j = s.slot j := fun j hj =>
    h.others j fun e => hk (by rw [List.mem_singleton] at e; rwa [← e])
  refine ⟨?_, ?_, ?_, ?_, ?_, ?_⟩
  · rw [h'.frame, h.frame]
  · intro j hj
    rcases List.mem_cons.mp hj with rfl | hj
    · rw [h'.others _ hk]
      exact h.slots _ (List.mem_singleton_self _)
    · rw [← hslot j hj]
      exact h'.slots j hj
  · intro j hj
    rw [List.mem_cons, not_or] at hj
    rw [h'.others j hj.2, h.others j (fun e => hj.1 (List.mem_singleton.mp e))]
  · intro g
    have hrun : (∃ j ∈ l, (s.tag g).holder = .slot j ∧ (t.slot j).state = .run) ↔
        ∃ j ∈ l, (s.tag g).holder = .slot j ∧ (s.slot j).state = .run :=
      exists_congr fun j => and_congr_right fun hj => by rw [hslot j hj]
    rw [h'.tags]
    simp only [State.orphanedTag, h.tags, hrun, List.exists_mem_cons_iff, List.not_mem_nil, false_and, exists_false,
      or_false, Bool.or_assoc, ← Bool.decide_or, ← and_or_left]
  · intro i hi
    rw [h'.parts i, h.parts i]
    · exact fun j hj => hi j (List.mem_singleton.mp hj ▸ List.mem_cons_self)
    · intro j hj
      rw [State.refsOf, hslot j hj]
      exact hi j (List.mem_cons_of_mem _ hj)
  · intro hc
    obtain ⟨hc1, hrel1⟩ := h.counted hc
    obtain ⟨hc2, hrel2⟩ := h'.counted hc1
    exact ⟨hc2, fun i => (hrel1 i).trans (hrel2 i) fun hz =>
      h'.parts i fun j _ => counted_refs_zero hc1 hz j⟩

/-! ### What the table loses (R8, R9, R18) -/

/-- The buffer references a slot holds on entry `i` (R6). -/
def Slot.refsOn (sl : Slot) (i : Fin 16) : Nat :=
  (if sl.refs ≠ .none ∧ sl.namesA i then 1 else 0) + if sl.namesB i then 1 else 0

theorem refsOf_eq (s : State) (i : Fin 16) (k : Fin 4) : s.refsOf i k = (s.slot k).refsOn i := rfl

theorem Slot.refsOn_eq {sl : Slot} (h : sl.refs ≠ .none) (i : Fin 16) :
    sl.refsOn i = (if sl.namesA i then 1 else 0) + if sl.namesB i then 1 else 0 := by
  simp only [Slot.refsOn, ne_eq, h, not_false_iff, true_and]

theorem Slot.refsOn_of_none {sl : Slot} (h : sl.refs = .none) (i : Fin 16) : sl.refsOn i = 0 := by
  simp [Slot.refsOn, Slot.namesB, h]

theorem releaseRefs_part_refs (s : State) (sl : Slot) (w torn : Bool) (i : Fin 16) :
    ((releaseRefs s sl w torn).part i).refs = (s.part i).refs - sl.refsOn i := by
  by_cases h : sl.refs = .none
  · rw [releaseRefs_none h, Slot.refsOn_of_none h, Nat.sub_zero]
  · have hlow : (s.lowered sl w torn i).refs = (s.part i).refs - sl.refsOn i := by
      rw [Slot.refsOn_eq h, ← Nat.sub_sub]
      rfl
    rw [releaseRefs_part s w torn h]
    split
    · rename_i hf
      exact hf.2.2.symm.trans hlow
    · exact hlow

theorem releaseRefs_part_unnamed (s : State) {sl : Slot} (w torn : Bool) {i : Fin 16} (hz : sl.refsOn i = 0) :
    (releaseRefs s sl w torn).part i = s.part i := by
  by_cases h : sl.refs = .none
  · rw [releaseRefs_none h]
  · rw [Slot.refsOn_eq h, Nat.add_eq_zero_iff] at hz
    have hA : ¬sl.namesA i := fun e => absurd hz.1 (by rw [if_pos e]; decide)
    have hB : ¬sl.namesB i := fun e => absurd hz.2 (by rw [if_pos e]; decide)
    rw [releaseRefs_part s w torn h, if_neg (fun e => e.1.elim hA hB)]
    simp only [State.lowered, hA, hB, false_and, if_false, decide_false, Bool.false_and, Bool.or_false, Nat.sub_zero]

theorem releaseRefs_releasedTo (s : State) (sl : Slot) (w torn : Bool) (i : Fin 16) :
    (s.part i).ReleasedTo ((releaseRefs s sl w torn).part i) := by
  by_cases h : sl.refs = .none
  · rw [releaseRefs_none h]
    exact .refl _
  · rw [releaseRefs_part s w torn h]
    split
    · rename_i hf
      exact .inl ⟨hf.2.1, rfl⟩
    · refine .inr ⟨rfl, ?_, Nat.sub_le _ _, fun e => ?_⟩
      · simp only [State.lowered]
        omega
      · simp only [State.lowered, e, Bool.true_or]

/-- References that one slot gives up are off the number of references held; the others count as before. -/
theorem sum_refsOf_given_up {s t : State} {k : Fin 4} (i : Fin 16) (hk : t.refsOf i k ≤ s.refsOf i k)
    (ho : ∀ j, j ≠ k → t.refsOf i j = s.refsOf i j) :
    ∑ j, t.refsOf i j = (∑ j, s.refsOf i j) - (s.refsOf i k - t.refsOf i k) := by
  have hrest : ∑ j ∈ Finset.univ.erase k, t.refsOf i j = ∑ j ∈ Finset.univ.erase k, s.refsOf i j :=
    Finset.sum_congr rfl fun j hj => ho j (Finset.ne_of_mem_erase hj)
  rw [← Finset.add_sum_erase _ _ (Finset.mem_univ k), ← Finset.add_sum_erase _ (s.refsOf i) (Finset.mem_univ k), hrest]
  omega

/-! ### Every slot under SILENT -/

/-- The state with the reads of slot `k` orphaned, where it is in RUN (R71). -/
def State.orphaned (s : State) (k : Fin 4) : State :=
  { s with link := { s.link with tags := tabulate 16 (s.orphanedTag [k]) } }

theorem orphaning_eq (s : State) (k : Fin 4) : s.orphaning k = s.orphaned k := by
  unfold State.orphaning State.orphaned
  split
  · rename_i h
    have ht : ∀ g, (if (s.tag g).state = .waiting ∧ (s.tag g).holder = .slot k then { s.tag g with orphan := true }
        else s.tag g) = s.orphanedTag [k] g := fun g => by
      simp only [State.orphanedTag, List.mem_singleton, exists_eq_left, h, and_true]
      split <;> simp [*]
    rw [orphanReads, tabulate_eq ht]
  · rename_i h
    have ht : ∀ g, s.orphanedTag [k] g = s.tag g := fun g => by
      simp only [State.orphanedTag, List.mem_singleton, exists_eq_left, h, and_false, decide_false, Bool.or_false]
    have hall : tabulate 16 s.tag = s.link.tags := tabulate_of_get _
    rw [tabulate_eq ht, hall]

/-- The state with a table and slot `k` replaced and the reads of slot `k` orphaned. -/
def State.withSilenced (s : State) (k : Fin 4) (ps : Vector Partition 16) (y : Slot) : State :=
  { s.orphaned k with partitions := ps, slots := s.slots.set k y }

theorem withSilenced_silencedOn {s : State} {k : Fin 4} {ps : Vector Partition 16} {y : Slot}
    (hy : (s.slot k).SilencedTo y) (hp : ∀ i, (s.slot k).refsOn i = 0 → ps.get i = s.part i)
    (hr : ∀ i, (s.part i).ReleasedTo (ps.get i)) (hle : ∀ i, y.refsOn i ≤ (s.slot k).refsOn i)
    (hc : ∀ i, (ps.get i).refs = (s.part i).refs - ((s.slot k).refsOn i - y.refsOn i)) :
    s.SilencedOn (s.withSilenced k ps y) [k] := by
  have hslot : ∀ j, (s.withSilenced k ps y).slot j = if j = k then y else s.slot j := fun j => get_set _ _ _ _
  have hother : ∀ j, j ≠ k → (s.withSilenced k ps y).slot j = s.slot j := fun j hj => by rw [hslot, if_neg hj]
  have hself : (s.withSilenced k ps y).slot k = y := by rw [hslot, if_pos rfl]
  refine ⟨rfl, fun j hj => ?_, fun j hj => hother j fun e => hj (List.mem_singleton.mpr e), fun g => tabulate_get _ _,
    fun i hi => hp i (hi k (List.mem_singleton_self k)), fun hs => ⟨fun i => ?_, hr⟩⟩
  · rw [List.mem_singleton.mp hj, hself]
    exact hy
  · have hk : (s.withSilenced k ps y).refsOf i k = y.refsOn i := by rw [refsOf_eq, hself]
    have ho : ∀ j, j ≠ k → (s.withSilenced k ps y).refsOf i j = s.refsOf i j := fun j hj => by
      rw [refsOf_eq, hother j hj, refsOf_eq]
    rw [sum_refsOf_given_up i (hk.trans_le (hle i)) ho, ← hs i, hk]
    exact hc i

/-- One slot given SILENT, while no RELEASE_PARTITION waits. -/
theorem stopSlot_silencedOn {s : State} (ha : s.admin.awaitsNone) (k : Fin 4) :
    s.SilencedOn (stopSlot s k .silent) [k] := by
  have hs := stopSlot_silent s k
  rw [orphaning_eq] at hs
  obtain ⟨y, hy, h⟩ | ⟨hx, torn, h⟩ := hs
  · have hsame : ∀ i, y.refsOn i = (s.slot k).refsOn i := fun i => by
      simp only [Slot.refsOn, Slot.namesA, Slot.namesB, hy.holds]
    rw [h]
    exact withSilenced_silencedOn (ps := s.partitions) (.inl hy) (fun _ _ => rfl) (fun _ => .refl _)
      (fun i => (hsame i).le) fun i => by rw [hsame, Nat.sub_self]; rfl
  · have hnone : ∀ i, Slot.none.refsOn i = 0 := fun i => Slot.refsOn_of_none rfl i
    rw [h, releaseRefs_frame, releaseRefs_admin_of_awaitsNone (s := s.orphaned k) ha]
    exact withSilenced_silencedOn (.inr ⟨hx, rfl⟩)
      (fun i hz => releaseRefs_part_unnamed (s.orphaned k) _ torn hz)
      (fun i => releaseRefs_releasedTo (s.orphaned k) _ _ torn i)
      (fun i => by rw [hnone]; exact Nat.zero_le _)
      (fun i => by rw [hnone, Nat.sub_zero]; exact releaseRefs_part_refs (s.orphaned k) _ _ torn i)

theorem foldl_stopSlot_silencedOn {l : List (Fin 4)} (hl : l.Nodup) {s : State} (ha : s.admin.awaitsNone) :
    s.SilencedOn (l.foldl (fun t k => stopSlot t k .silent) s) l := by
  induction l generalizing s with
  | nil => exact .nil s
  | cons k l ih =>
    obtain ⟨hk, hl⟩ := List.nodup_cons.mp hl
    have h1 := stopSlot_silencedOn ha k
    exact h1.cons (ih hl (by rw [h1.frame]; exact ha)) hk

/-- Every slot given SILENT, while no RELEASE_PARTITION waits. -/
theorem stopAllSlots_silencedOn {s : State} (ha : s.admin.awaitsNone) :
    s.SilencedOn (stopAllSlots s .silent) allSlots := foldl_stopSlot_silencedOn (List.nodup_finRange 4) ha

end Sys2Proof.Machine
end

section
/-! SUPPORT. FUNCTION_RESET (R151, R154): the happening concluded in STANDBY, where no request of a tag stands and the
port is granted to a request that stood. -/

-- One theorem at a time, as in the tests above: fewer threads than the memory limit allows.
set_option Elab.async false

namespace Sys2Proof.Machine

/-! ### A happening concluded in STANDBY -/

theorem settlePhases_standby {s : State} (ho : s.ctl.op = .standby) (hd : deletingChannel s = none) :
    settlePhases s = s := by
  have h1 : endDeletion s = s := by simp [endDeletion, hd]
  have h2 : quiesceStep s = s := by simp [quiesceStep, ho]
  have h3 : stopStep s = s := by simp [stopStep, ho]
  have h4 : flushStep s = s := by simp [flushStep, ho]
  simp [settlePhases, h1, h2, h3, h4]

theorem searchAfter_eq_none {n : Nat} [NeZero n] (p : Fin n) {f : Fin n → Bool} (h : ∀ i, f i = false) :
    searchAfter p f = none := by
  simp [searchAfter, List.find?_eq_none, h]

theorem grantTags_of_no_holder {s : State} (h : grantHolder s = none) (n : Nat) : grantTags n s = s := by
  cases n with
  | zero => rfl
  | succ n =>
    simp only [grantTags, h]
    split
    · cases freeTag s <;> rfl
    · rfl

theorem FetchRecord.refreshed_orphan (f : FetchRecord) : f.orphan.refreshed false = f.orphan := by cases f <;> rfl

theorem FetchRecord.orphan_ne_requesting (f : FetchRecord) : f.orphan ≠ .requesting := by
  cases f <;> simp [FetchRecord.orphan]

/-- Outside ACTIVE, with every read of a ring orphaned and no slot in RUN, no tag is asked for (R28, R57, R131). -/
theorem settleLink_unasked {s : State} (ho : s.ctl.op ≠ .active) (hs : ∀ k, (s.slot k).state ≠ .run)
    {f : Fin 16 → FetchRecord} (hf : ∀ c, s.fetchOf c = (f c).orphan) {g : FetchRecord} (hg : s.adminFetch = g.orphan) :
    settleLink s = { s with link := { s.link with slotRequests := Vector.replicate 4 false } } := by
  have hslot : tabulate 4 (fun k => slotWantsTag (s.slot k)) = Vector.replicate 4 false :=
    vector_ext_get fun k => by
      rw [tabulate_get]
      simp [slotWantsTag, hs k]
  have hfetch : tabulate 16 (fun c => (s.fetchOf c).refreshed (channelWantsFetch s c)) = s.fetch :=
    vector_ext_get fun c => by
      have hc : channelWantsFetch s c = false := by simp [channelWantsFetch, ho]
      rw [tabulate_get, hc, hf, FetchRecord.refreshed_orphan, ← hf]
      rfl
  have hadmin : s.adminFetch.refreshed (adminWantsFetch s) = s.adminFetch := by
    have hc : adminWantsFetch s = false := by simp [adminWantsFetch, ho]
    rw [hc, hg, FetchRecord.refreshed_orphan]
  have hr : refreshRequests s = { s with link := { s.link with slotRequests := Vector.replicate 4 false } } := by
    rw [refreshRequests, hslot, hfetch, hadmin]
  rw [settleLink, hr, grantTags_of_no_holder]
  have hnoslot : ∀ k, (Vector.replicate 4 false).get k = false := fun k => by simp
  have hnochan : ∀ c, (s.fetchOf c == .requesting) = false := fun c => by
    rw [hf, beq_eq_false_iff_ne]
    exact FetchRecord.orphan_ne_requesting _
  have hnoadmin : s.adminFetch ≠ .requesting := hg ▸ FetchRecord.orphan_ne_requesting g
  simp only [grantHolder, searchAfter_eq_none _ hnoslot, if_neg hnoadmin]
  exact congrArg (Option.map TagHolder.channel) (searchAfter_eq_none _ hnochan)

/-! ### A grant of the port -/

theorem searchAfter_some {n : Nat} [NeZero n] {p k : Fin n} {f : Fin n → Bool} (h : searchAfter p f = some k) :
    f k = true := List.find?_some h

/-- The port is granted to a slot only where its request stood (R100). -/
theorem portChoice_slot {s : State} {k : Fin 4} (h : portChoice s = .slot k) : (s.slot k).port = .waiting := by
  have hreq : ∀ cls, slotRequests s cls k = true → (s.slot k).port = .waiting := fun cls e => by
    simp only [slotRequests, Bool.and_eq_true, beq_iff_eq] at e
    exact e.1
  unfold portChoice at h
  split at h
  · cases h
  split at h
  · cases h
  split at h
  · rename_i hu
    cases h
    exact hreq _ (searchAfter_some hu)
  split at h
  · rename_i hb
    cases h
    exact hreq _ (searchAfter_some hb)
  split at h
  · cases h
  split at h
  · cases h
  split at h <;> cases h

/-- A grant moves no slot but from a standing request to an operation in progress (R100). -/
theorem settlePort_slot (s : State) (k : Fin 4) :
    (settlePort s).slot k = s.slot k ∨
      (s.slot k).port = .waiting ∧ (settlePort s).slot k = { s.slot k with port := .inProgress } := by
  unfold settlePort
  split
  · cases hc : portChoice s with
    | slot j =>
      have hset : (grantPort s (.slot j)).slot k = if k = j then { s.slot j with port := .inProgress } else s.slot k :=
        get_set _ _ _ _
      by_cases hj : k = j
      · subst hj
        exact .inr ⟨portChoice_slot hc, hset.trans (if_pos rfl)⟩
      · exact .inl (hset.trans (if_neg hj))
    | none | refreshEngine | scrubUnit | selfRefreshEntry | selfRefreshExit | arrayStart => exact .inl rfl
  · exact .inl rfl

/-- Without a request of self-refresh entry, a grant changes the port and the slots alone (R100, R101). -/
theorem settlePort_frame {s : State} (h : s.port.entryRequest = false) :
    settlePort s = { s with port := (settlePort s).port, slots := (settlePort s).slots } := by
  unfold settlePort
  split
  · cases hc : portChoice s with
    | selfRefreshEntry => exact absurd (portChoice_entry hc).1 (by simp [h])
    | slot | none | refreshEngine | scrubUnit | selfRefreshExit | arrayStart => rfl
  · rfl

/-! ### FUNCTION_RESET (R151, R154) -/

/-- All work abandoned but that of the slots (R154). -/
def State.abandoned (s : State) : State :=
  { dropAdminRing (dropRings (dropChannels s)) with
    ctl := { s.ctl with op := .standby }
    sched := .fresh
    monitor := s.monitor.disarmed
    adminRing := .zero }

theorem functionReset_eq (s : State) : functionReset s = stopAllSlots s.abandoned .silent := rfl

theorem abandoned_awaitsNone (s : State) : s.abandoned.admin.awaitsNone := fun _ h => by cases h

/-- FUNCTION_RESET at work: the work of the slots is left under SILENT, every tag request is withdrawn, and the port may
be granted. -/
theorem exec_functionReset_atWork {s : State} (hc : s.power.core = true) (hl : s.link.up = true)
    (hw : s.atWork = true) :
    exec .functionReset s =
      .next
        (settlePort
          { functionReset s with
            link := { (functionReset s).link with slotRequests := Vector.replicate 4 false } }) := by
  have hu := stopAllSlots_silencedOn (abandoned_awaitsNone s)
  rw [← functionReset_eq] at hu
  have hop : (functionReset s).ctl.op = .standby := congrArg (·.ctl.op) hu.frame
  have hadmin := congrArg State.admin hu.frame
  have hafetch := congrArg State.adminFetch hu.frame
  have hfetch : ∀ c, (functionReset s).fetchOf c = (s.fetchOf c).orphan := fun c => by
    rw [State.fetchOf, congrArg State.fetch hu.frame]
    exact tabulate_get _ _
  have hphases : settlePhases (functionReset s) = functionReset s :=
    settlePhases_standby hop (by rw [deletingChannel, hadmin]; rfl)
  have hrun : ∀ k, ((functionReset s).slot k).state ≠ .run := fun k => (hu.slots k (List.mem_finRange k)).not_run
  have hlink := settleLink_unasked (by simp [hop]) hrun hfetch hafetch
  show execFunctionReset s = _
  simp only [execFunctionReset, State.reached, hc, hl, hw, Bool.and_self, Bool.true_eq_false, if_false, if_true,
    conclude, hphases, hlink]

/-- What a grant may leave of a slot under SILENT. -/
theorem Slot.SilencedTo.granted {x y z : Slot} (h : x.SilencedTo y)
    (hz : z = y ∨ y.port = .waiting ∧ z = { y with port := .inProgress }) :
    z = Slot.none ∨
      (z.state = .ending ∧ z.stop = .silent ∧ z.entry = x.entry ∧ z.refs = x.refs ∧ z.bytesDone = x.bytesDone) ∨
      (x.state = .idle ∧ z.state = .idle) := by
  obtain (⟨hx, rfl⟩ | ⟨-, hy⟩) | ⟨-, rfl⟩ := h
  · obtain rfl | ⟨-, rfl⟩ := hz
    · exact .inr (.inr ⟨hx, hx⟩)
    · exact .inr (.inr ⟨hx, hx⟩)
  · obtain rfl | ⟨-, rfl⟩ := hz
    · exact .inr (.inl hy)
    · exact .inr (.inl hy)
  · obtain rfl | ⟨hw, -⟩ := hz
    · exact .inl rfl
    · cases hw

theorem Slot.SilencedTo.of_check {x y z : Slot} (h : x.SilencedTo y) (hx : x.state = .check)
    (hz : z = y ∨ y.port = .waiting ∧ z = { y with port := .inProgress }) : z = Slot.none := by
  obtain (⟨hi, -⟩ | ⟨hr, -⟩) | ⟨-, rfl⟩ := h
  · cases hx.symm.trans hi
  · exact (hr.elim (fun e => nomatch hx.symm.trans e) (fun e => nomatch hx.symm.trans e))
  · obtain rfl | ⟨hw, -⟩ := hz
    · rfl
    · cases hw

theorem abandoned_counted {s : State} (h : s.ReferenceLaw) : s.abandoned.Counted := fun i => by
  rw [Fin.sum_univ_def]
  exact (h.1 i).1

/-- Settles O35: at work, by what SILENT leaves of the slots and of the table; elsewhere by the definition. -/
theorem functionResetTaken : Obligations.FunctionResetTaken := by
  intro s hcore hup fresh
  have hexec : exec .functionReset s =
      .next
        (if s.atWork then conclude (functionReset s)
        else if s.ctl.op = .standby then { s with adminRing := .zero, sched := .fresh }
        else s) := by
    show execFunctionReset s = _
    simp only [execFunctionReset, State.reached, hcore, hup, Bool.and_self, Bool.true_eq_false, if_false]
  have hidle : s.ctl.op ≠ .active → s.ctl.op ≠ .quiescing → s.atWork = false := fun h1 h2 => by
    simp [State.atWork, h1, h2]
  refine ⟨fun hop he => ⟨_, exec_functionReset_atWork hcore hup (by simpa [State.atWork] using hop), ?_⟩,
    fun h => ?_, fun h1 h2 h3 => ?_⟩
  · have hu := stopAllSlots_silencedOn (abandoned_awaitsNone s)
    rw [← functionReset_eq] at hu
    generalize functionReset s = u at hu
    generalize hv : ({ u with link := { u.link with slotRequests := Vector.replicate 4 false } } : State) = v
    have hentry : s.port.entryRequest = false := by
      by_contra h
      have := he (by simpa using h)
      simp [this] at hop
    have hvu : v =
        { s.abandoned with
          partitions := u.partitions, slots := u.slots
          link := { s.link with tags := u.link.tags, slotRequests := Vector.replicate 4 false } } := by
      rw [← hv, hu.frame]
      rfl
    have hgrant := settlePort_frame (s := v) (by rw [hvu]; exact hentry)
    have hslot : ∀ k, (settlePort v).slot k = u.slot k ∨
        (u.slot k).port = .waiting ∧ (settlePort v).slot k = { u.slot k with port := .inProgress } := fun k => by
      have hk : v.slot k = u.slot k := by rw [← hv]; rfl
      rw [← hk]
      exact settlePort_slot v k
    have hheld : v.port.holder ≠ .none → (settlePort v).port = v.port := fun h => congrArg State.port (if_neg h)
    generalize settlePort v = t at hgrant hslot hheld
    rw [hvu] at hgrant hheld
    have field : ∀ {α : Type} (g : State → α), g t = g _ := fun g => congrArg g hgrant
    have hpart : ∀ i, t.part i = u.part i := fun i => field (·.part i)
    have htags : u.link.tags = tabulate 16 fun g =>
        { s.tag g with
          orphan :=
            (s.tag g).orphan ||
              decide ((s.tag g).state = .waiting ∧ ∃ k, (s.tag g).holder = .slot k ∧ (s.slot k).state = .run) } :=
      vector_ext_get fun g => by
        have hall : ∀ k, k ∈ allSlots := List.mem_finRange
        refine (hu.tags g).trans ?_
        rw [tabulate_get]
        simp only [State.orphanedTag, hall, true_and]
        rfl
    refine ⟨field State.ctl, fun c => ?_, fun r => ?_, field State.admin,
      field State.adminRing, field State.sched, field State.monitor,
      fun k => (hu.slots k (List.mem_finRange k)).granted (hslot k),
      fun k hk => (hu.slots k (List.mem_finRange k)).of_check hk (hslot k), fun c => ?_,
      field State.adminFetch, fun hr i => ?_, fun i hi => ?_, ?_, hheld, field State.mem,
      field State.health, field State.refresh, field State.scrub,
      field State.events, field State.memState, field State.power,
      field State.time⟩
    · exact (field (·.chan c)).trans (by simp [State.chan, State.abandoned, dropAdminRing, dropRings, dropChannels])
    · exact (field (·.ring r)).trans (by simp [State.ring, State.abandoned, dropAdminRing, dropRings])
    · exact (field (·.fetchOf c)).trans (tabulate_get _ c)
    · rw [hpart]
      exact (hu.counted (abandoned_counted hr)).2 i
    · rw [hpart]
      exact hu.parts i fun k _ => hi k
    · rw [← htags]
      exact field State.link
  · rw [hexec, hidle (by simp [h]) (by simp [h])]
    simp only [h, Bool.false_eq_true, if_false, if_true]
    rfl
  · rw [hexec, hidle h1 h2]
    simp only [h3, Bool.false_eq_true, if_false]

end Sys2Proof.Machine
end

section
/-! SUPPORT. A state that refutes the step lemma of the channel law (R32). -/

-- One theorem at a time, as in the tests above: fewer threads than the memory limit allows.
set_option Elab.async false

namespace Sys2Proof.Machine

/-! ### The channel law is not kept from every state it admits

The law binds a slot to its channel only while the slot holds work (R35, R69), and says nothing of an IDLE slot with a
port operation under way. In `idleAtPort` no channel exists and slot 0, IDLE, has a read burst at the port; found
uncorrectable, the burst puts the slot into ENDING with a piece to deliver (R66), and no channel is bound to it. -/

theorem idleAtPort_channelLaw : idleAtPort.ChannelLaw := by
  have hchan : ∀ c, idleAtPort.chan c = Channel.none := by decide +kernel
  have hfetch : ∀ c, idleAtPort.fetchOf c = .empty := by decide +kernel
  have hidle : ∀ k, (idleAtPort.slot k).state = .idle := by decide +kernel
  refine ⟨fun c => ?_, fun k hk => absurd (hidle k) hk.1⟩
  rw [hchan, hfetch]
  exact ⟨Nat.zero_le _, Nat.zero_le _, nofun, fun h => absurd rfl h, fun _ => ⟨rfl, nofun⟩⟩

theorem afterIdleAtPort_holdsWork : afterIdleAtPort.holdsWork 0 := by
  unfold State.holdsWork
  decide +kernel

theorem afterIdleAtPort_unbound : (afterIdleAtPort.chan (afterIdleAtPort.slot 0).chan).slot = none := by decide +kernel

/-- Refutes O12: a step of `idleAtPort` leaves slot 0 with work that no channel is bound to. -/
theorem not_channelLawKept : ¬ Obligations.ChannelLawKept := by
  unfold Obligations.ChannelLawKept
  intro h
  obtain ⟨-, hbound⟩ := h _ _ idleAtPort_retainedLaw idleAtPort_channelLaw step_idleAtPort
  have hslot := (hbound 0 afterIdleAtPort_holdsWork).1
  rw [afterIdleAtPort_unbound] at hslot
  cases hslot

end Sys2Proof.Machine
end

section
/-! SUPPORT. The commands of the admin ring on channels: the checks of each as equations of its taking, and what a taken
command then completes with or waits for (R31, R40 to R43). -/

-- One theorem at a time, as in the tests above: fewer threads than the memory limit allows.
set_option Elab.async false

namespace Sys2Proof.Machine

/-! ### CREATE_CHANNEL (R40) -/

theorem ioRingIndex_eq_none {id : BitVec 8} (h : id.toNat = 0 ∨ 9 ≤ id.toNat) : ioRingIndex id = none :=
  dif_neg (by omega)

theorem ioRingIndex_eq_some {id : BitVec 8} {q : Fin 9} (h : id.toNat = q.val) (hq : q ≠ 0) :
    ioRingIndex id = some q := by
  have hpos : q.val ≠ 0 := fun e => hq (Fin.ext e)
  rw [ioRingIndex, dif_pos (by omega)]
  simp [h]

/-- The ring sizes of R40 are the powers of two from 2^3 to 2^12. -/
theorem isRingSize_iff {n : Nat} : isRingSize 8 4096 n = true ↔ ∃ e : Fin 10, n = 2 ^ (e.val + 3) := by
  have hsizes : [8, 16, 32, 64, 128, 256, 512, 1024, 2048, 4096] = (List.finRange 10).map fun e => 2 ^ (e.val + 3) := by
    decide
  simp only [isRingSize, hsizes, Bool.and_eq_true, decide_eq_true_eq, List.contains_iff_mem, List.mem_map,
    List.mem_finRange, true_and]
  constructor
  · rintro ⟨-, e, rfl⟩
    exact ⟨e, rfl⟩
  · rintro ⟨e, rfl⟩
    exact ⟨⟨Nat.pow_le_pow_right (n := 2) (by omega) (by omega : 3 ≤ e.val + 3),
      Nat.pow_le_pow_right (n := 2) (by omega) (by omega : e.val + 3 ≤ 12)⟩, e, rfl⟩

theorem channelClass_eq {b : BitVec 8} :
    channelClass b = if b.toNat ≤ 1 then some (if b.toNat = 1 then .urgent else .bulk) else none := by
  unfold channelClass
  split
  · simp [*]
  · simp [*]
  · rename_i h0 h1
    have hn : ¬b.toNat ≤ 1 := fun h => by
      obtain e | e : b.toNat = 0 ∨ b.toNat = 1 := by omega
      · exact h0 e
      · exact h1 e
    rw [if_neg hn]

theorem stopOnErrorFlag_eq {b : BitVec 8} :
    stopOnErrorFlag b = if b.toNat ≤ 1 then some (decide (b.toNat = 1)) else none := by
  unfold stopOnErrorFlag
  split
  · simp [*]
  · simp [*]
  · rename_i h0 h1
    have hn : ¬b.toNat ≤ 1 := fun h => by
      obtain e | e : b.toNat = 0 ∨ b.toNat = 1 := by omega
      · exact h0 e
      · exact h1 e
    rw [if_neg hn]

/-- The fields of a CREATE_CHANNEL are in range (R40). -/
def channelInRange (r : Record) : Prop :=
  (longAt r 16).toNat % 64 = 0 ∧ (∃ n : Fin 10, (halfAt r 14).toNat = 2 ^ (n.val + 3)) ∧ (byteAt r 9).toNat ≤ 1 ∧
    1 ≤ (byteAt r 10).toNat ∧ (byteAt r 10).toNat ≤ 16 ∧ (byteAt r 11).toNat ≤ 1

theorem channelFieldsValid_iff (r : Record) :
    channelFieldsValid r = true ↔
      (longAt r 16).toNat % 64 = 0 ∧ (∃ n : Fin 10, (halfAt r 14).toNat = 2 ^ (n.val + 3)) ∧
        1 ≤ (byteAt r 10).toNat ∧ (byteAt r 10).toNat ≤ 16 := by
  simp only [channelFieldsValid, Bool.and_eq_true, decide_eq_true_eq, aligned64_iff, isRingSize_iff, and_assoc]

/-- The context that CREATE_CHANNEL makes of fields in range (R40, R178). -/
def createdChannel (r : Record) (q : Fin 9) : Channel :=
  newChannel r (if (byteAt r 9).toNat = 1 then .urgent else .bulk) (decide ((byteAt r 11).toNat = 1)) q

section
variable {s : State} {r : Record} {c : Fin 16} {q : Fin 9}

theorem createChannel_badId (hp : s.ctl.retainedPending = false)
    (hid : (byteAt r 8).toNat = 0 ∨ 17 ≤ (byteAt r 8).toNat) : createChannel s r = .refused s .badId := by
  simp [createChannel, hp, channelIndex_eq_none hid]

theorem createChannel_alreadyExists (hp : s.ctl.retainedPending = false) (hid : (byteAt r 8).toNat = c.val + 1)
    (hc : (s.chan c).state ≠ .absent) : createChannel s r = .refused s .alreadyExists := by
  simp [createChannel, hp, channelIndex_eq_some hid, hc]

theorem createChannel_badRingId (hp : s.ctl.retainedPending = false) (hid : (byteAt r 8).toNat = c.val + 1)
    (hc : (s.chan c).state = .absent) (hq : (byteAt r 12).toNat = 0 ∨ 9 ≤ (byteAt r 12).toNat) :
    createChannel s r = .refused s .badId := by
  simp [createChannel, hp, channelIndex_eq_some hid, hc, ioRingIndex_eq_none hq]

theorem createChannel_notFound (hp : s.ctl.retainedPending = false) (hid : (byteAt r 8).toNat = c.val + 1)
    (hc : (s.chan c).state = .absent) (hq : (byteAt r 12).toNat = q.val) (hq0 : q ≠ 0)
    (hr : (s.ring q).state ≠ .active) : createChannel s r = .refused s .notFound := by
  simp [createChannel, hp, channelIndex_eq_some hid, hc, ioRingIndex_eq_some hq hq0, hr]

/-- With the channel and the ring found, the remaining fields decide (R40). -/
theorem createChannel_found (hp : s.ctl.retainedPending = false) (hid : (byteAt r 8).toNat = c.val + 1)
    (hc : (s.chan c).state = .absent) (hq : (byteAt r 12).toNat = q.val) (hq0 : q ≠ 0)
    (hr : (s.ring q).state = .active) :
    (channelInRange r → createChannel s r = .done (bindChannel s c (createdChannel r q)) .ok 0) ∧
      (¬channelInRange r → createChannel s r = .refused s .badParameter) := by
  have hfields := channelFieldsValid_iff r
  simp only [createChannel, hp, channelIndex_eq_some hid, hc, ioRingIndex_eq_some hq hq0, hr, channelClass_eq,
    stopOnErrorFlag_eq, Bool.false_eq_true, if_false, ne_eq, not_true]
  constructor
  · rintro ⟨hb, hs, hcls, h1, h16, hsoe⟩
    simp only [if_pos hcls, if_pos hsoe, if_pos (hfields.mpr ⟨hb, hs, h1, h16⟩), createdChannel]
  · intro hn
    by_cases hcls : (byteAt r 9).toNat ≤ 1
    · by_cases hsoe : (byteAt r 11).toNat ≤ 1
      · have hinvalid : ¬channelFieldsValid r = true := fun h => by
          obtain ⟨hb, hs, h1, h16⟩ := hfields.mp h
          exact hn ⟨hb, hs, hcls, h1, h16, hsoe⟩
        simp only [if_pos hcls, if_pos hsoe, if_neg hinvalid]
      · simp only [if_pos hcls, if_neg hsoe]
    · simp only [if_neg hcls]

end

/-! ### PAUSE_CHANNEL, RESUME_CHANNEL and DELETE_CHANNEL (R41 to R43) -/

theorem withChannel_present {s : State} {r : Record} (body : Fin 16 → Taken) {c : Fin 16}
    (hid : (byteAt r 8).toNat = c.val + 1) (h : (s.chan c).state ≠ .absent) : withChannel s r body = body c := by
  simp [withChannel, channelIndex_eq_some hid, h]

/-- The deletion of a channel with the command in execution (R31, R43): what it does before its slot is stopped. -/
def deletionBegun (s : State) (f : Fetched) (rest : List Fetched) (c : Fin 16) : State :=
  { (s.setChan c { s.chan c with state := .deleting }).setFetch c (s.fetchOf c).orphan with
    admin := s.admin.waiting f rest (.channelEmpty c) }

theorem deleteChan_taken (s : State) (f : Fetched) (rest : List Fetched) (c : Fin 16) :
    deleteChan (beginCommand s f rest) c = .waits (stopBoundSlot (deletionBegun s f rest c) c) := rfl

theorem stopBoundSlot_deletionBegun (s : State) (f : Fetched) (rest : List Fetched) (c : Fin 16) :
    stopBoundSlot (deletionBegun s f rest c) c =
      match (s.chan c).slot with
      | none => deletionBegun s f rest c
      | some k => stopSlot (deletionBegun s f rest c) k .aborted := by
  have hchan : (deletionBegun s f rest c).chan c = { s.chan c with state := .deleting } :=
    State.setChan_chan_self s c _
  have hslot : ((deletionBegun s f rest c).chan c).slot = (s.chan c).slot := by rw [hchan]
  cases h : (s.chan c).slot with
  | none | some => simp only [stopBoundSlot, hslot, h]

/-- A stop request leaves the operating state and the entry request as they were. -/
theorem stopSlot_entryLaw {s : State} (h : s.EntryLaw) (k : Fin 4) (q : StopRequest) : (stopSlot s k q).EntryLaw := by
  obtain ⟨ps, a, cs, w, ss, ts, e⟩ := stopSlot_eq s k q
  rw [e]
  exact h

theorem stopBoundSlot_entryLaw {s : State} (h : s.EntryLaw) (c : Fin 16) : (stopBoundSlot s c).EntryLaw := by
  unfold stopBoundSlot
  split
  · exact h
  · exact stopSlot_entryLaw h _ _

/-- Settles O44: each command past the shared checks, by the branch its own check takes. -/
theorem channelCommands : Obligations.ChannelCommands := by
  intro s f rest c hid hc x
  have hw : ∀ body : Fin 16 → Taken, withChannel (beginCommand s f rest) f.entry body = body c :=
    fun body => withChannel_present body hid hc
  refine ⟨fun ht => ⟨fun h => ?_, fun h => ?_⟩, fun ht => ⟨fun h => ?_, fun h => ?_⟩, fun ht he => ?_⟩
  · exact completes_of_done (exec_pauseChannel s) ht rfl ((hw _).trans (if_neg (not_not.mpr h)))
  · exact completes_of_refused (exec_pauseChannel s) ht rfl ((hw _).trans (if_pos h))
  · exact completes_of_done (exec_resumeChannel s) ht rfl ((hw _).trans (if_pos h))
  · exact completes_of_refused (exec_resumeChannel s) ht rfl ((hw _).trans (if_neg h))
  · have hexec : exec .deleteChannel s = .next (conclude (stopBoundSlot (deletionBegun s f rest c) c)) := by
      rw [exec_deleteChannel, takeCommand_next ht rfl]
      simp only [hw, deleteChan_taken, Taken.state]
    have hc := concludes_of_next hexec (stopBoundSlot_entryLaw (s := deletionBegun s f rest c) he c)
    rwa [stopBoundSlot_deletionBegun] at hc

end Sys2Proof.Machine

namespace Sys2Proof.Laws

open Sys2Proof.Machine

/-- Settles O43: one equation of `createChannel` for each check, and the last for the context made. -/
theorem createChannel : Obligations.CreateChannel := by
  intro s f rest c q ht
  have he := exec_createChannel s
  refine ⟨fun hp => completes_of_refused he ht rfl (if_pos hp), fun hp => ⟨fun hid => ?_, fun hid =>
    ⟨fun hc => ?_, fun hc => ⟨fun hq => ?_, fun hq hq0 => ⟨fun hr => ?_, fun hr => ?_⟩⟩⟩⟩⟩
  · exact completes_of_refused he ht rfl (createChannel_badId (s := beginCommand s f rest) hp hid)
  · exact completes_of_refused he ht rfl (createChannel_alreadyExists (s := beginCommand s f rest) hp hid hc)
  · exact completes_of_refused he ht rfl (createChannel_badRingId (s := beginCommand s f rest) hp hid hc hq)
  · exact completes_of_refused he ht rfl (createChannel_notFound (s := beginCommand s f rest) hp hid hc hq hq0 hr)
  · obtain ⟨hmade, hrefused⟩ := createChannel_found (s := beginCommand s f rest) hp hid hc hq hq0 hr
    exact ⟨fun hn => completes_of_refused he ht rfl (hrefused hn),
      fun hok => completes_of_done he ht rfl (hmade hok)⟩

end Sys2Proof.Laws
end

section
/-! SUPPORT. NOTIFY of a submission tail and of a completion head (R27, R39, R84 to R86, R130). -/

-- One theorem at a time, as in the tests above: fewer threads than the memory limit allows.
set_option Elab.async false

namespace Sys2Proof.Machine

/-! ### Handing over, as a change of the link alone (R167) -/

/-- The link takes an item: it is UP, and for a message the message enable is set (R167). -/
def Link.takes (l : Link) : Outbound → Bool
  | .message _ => l.up && l.messageEnable
  | .write _ _ | .read _ _ _ => l.up

/-- The link after an item is handed over (R167). -/
def Link.handed (l : Link) (o : Outbound) : Link :=
  if l.takes o then { l with outbound := l.outbound ++ [o] } else l

theorem handOut_handed (s : State) (o : Outbound) : s.handOut o = { s with link := s.link.handed o } := by
  have h : s.handOut o =
      if s.link.takes o then { s with link := { s.link with outbound := s.link.outbound ++ [o] } } else s := by
    cases o <;> rfl
  rw [h, Link.handed]
  cases s.link.takes o <;> rfl

/-! ### A fetch record after the requests and grants of a happening (R28) -/

/-- A fetch record that holds a request or a read is not emptied by grants of tags. -/
theorem grantTo_fetch_ne_empty {s : State} {c : Fin 16} (t : Fin 16) (h : TagHolder) (hf : s.fetchOf c ≠ .empty) :
    (grantTo s t h).fetchOf c ≠ .empty := by
  cases h with
  | none | slot | admin => exact hf
  | channel d =>
    have hset : (grantTo s t (.channel d)).fetchOf c =
        if c = d then .inFlight (fetchCount (s.chan d).pendingCount (8 - (s.chan d).queue.length)
          ((s.chan d).size - (s.chan d).head)) else s.fetchOf c := get_set _ _ _ _
    rw [hset]
    split
    · simp
    · exact hf

theorem grantTags_fetch_ne_empty {c : Fin 16} (n : Nat) {s : State} (hf : s.fetchOf c ≠ .empty) :
    (grantTags n s).fetchOf c ≠ .empty := by
  induction n generalizing s with
  | zero => exact hf
  | succ n ih =>
    unfold grantTags
    split
    · split
      · exact ih (grantTo_fetch_ne_empty _ _ hf)
      · exact hf
    · exact hf

/-- When the Ring Fetch Unit asks for a tag for a channel (R28). -/
theorem channelWantsFetch_iff {s : State} {c : Fin 16} :
    channelWantsFetch s c = true ↔
      s.ctl.op = .active ∧ (s.chan c).state = .running ∧
        ((s.chan c).tail + (s.chan c).size - (s.chan c).head) % (s.chan c).size ≠ 0 ∧ (s.chan c).queue.length < 8 := by
  simp only [channelWantsFetch, Channel.pendingCount, pendingCount, Bool.and_eq_true, beq_iff_eq, decide_eq_true_eq,
    Nat.pos_iff_ne_zero, and_assoc]

theorem refreshRequests_fetchOf (s : State) (c : Fin 16) :
    (refreshRequests s).fetchOf c = (s.fetchOf c).refreshed (channelWantsFetch s c) := tabulate_get _ c

/-- Where a fetch is wanted, the record holds a request or a read after the happening (R28). -/
theorem settleLink_fetch_ne_empty {s : State} {c : Fin 16} (h : channelWantsFetch s c = true) :
    (settleLink s).fetchOf c ≠ .empty := by
  refine grantTags_fetch_ne_empty 16 ?_
  rw [refreshRequests_fetchOf, h]
  cases s.fetchOf c <;> simp [FetchRecord.refreshed]

/-! ### Submission tails (R27, R130) -/

section
variable {s : State} (hcore : s.power.core = true) (hup : s.link.up = true)
include hcore hup

theorem exec_notifySqTail (ring : BitVec 8) (index : BitVec 16) :
    exec (.notifySqTail ring index) s =
      .next
        (if ring = 0 then notifyAdminTail index.toNat s
        else
          match channelIndex ring with
          | none => s.raise .badNotify
          | some c => notifyChannelTail c index.toNat s) := by
  have hreached : ¬s.reached = false := by simp [State.reached, hcore, hup]
  exact congrArg Host.Outcome.next (if_neg hreached)

theorem exec_notifySqTail_admin (index : BitVec 16) :
    exec (.notifySqTail 0 index) s = .next (notifyAdminTail index.toNat s) := by
  rw [exec_notifySqTail hcore hup, if_pos rfl]

theorem exec_notifySqTail_channel {ring : BitVec 8} {c : Fin 16} (hr : ring.toNat = c.val + 1) (index : BitVec 16) :
    exec (.notifySqTail ring index) s = .next (notifyChannelTail c index.toNat s) := by
  have hne : ring ≠ 0 := by rintro rfl; simp at hr
  rw [exec_notifySqTail hcore hup, if_neg hne, channelIndex_eq_some hr]

theorem exec_notifySqTail_unknown {ring : BitVec 8} (hr : 16 < ring.toNat) (index : BitVec 16) :
    exec (.notifySqTail ring index) s = .next (s.raise .badNotify) := by
  have hne : ring ≠ 0 := by rintro rfl; simp at hr
  rw [exec_notifySqTail hcore hup, if_neg hne, channelIndex_eq_none (.inr hr)]

theorem exec_notifyCqHead (ring : BitVec 8) (index : BitVec 16) :
    exec (.notifyCqHead ring index) s =
      .next
        (match ringIndex ring with
        | none => s.raise .badNotify
        | some r =>
          if (s.ring r).state = .active ∧ index.toNat < (s.ring r).size then conclude (takeHead s r index.toNat)
          else s.raise .badNotify) := by
  have hreached : ¬s.reached = false := by simp [State.reached, hcore, hup]
  exact congrArg Host.Outcome.next (if_neg hreached)

end

theorem notifyAdminTail_refused {s : State} {n : Nat}
    (h : ¬((s.ctl.op = .active ∨ s.ctl.op = .quiescing ∨ s.ctl.op = .draining) ∧ n < s.admin.size)) :
    notifyAdminTail n s = s.raise .badNotify := if_neg h

theorem notifyChannelTail_refused {s : State} {c : Fin 16} {n : Nat}
    (h : ¬((s.chan c).state ≠ .absent ∧ (s.chan c).state ≠ .deleting ∧ n < (s.chan c).size)) :
    notifyChannelTail c n s = s.raise .badNotify :=
  if_pos (by simpa only [not_and_or, ne_eq, not_not, Nat.not_lt] using h)

theorem notifyChannelTail_taken {s : State} {c : Fin 16} {n : Nat}
    (h : (s.chan c).state ≠ .absent ∧ (s.chan c).state ≠ .deleting ∧ n < (s.chan c).size) :
    notifyChannelTail c n s = settleLink (s.setChan c { s.chan c with tail := n }) := if_neg (by simpa using h)

/-- Settles O36: each ring kind by its own meaning, an accepted tail by what settling the link leaves. -/
theorem submissionTails : Obligations.SubmissionTails := by
  intro s ring index hcore hup
  refine ⟨?_, fun c hr => ⟨fun ok => ?_, fun bad => ?_⟩, fun hr => exec_notifySqTail_unknown hcore hup hr index⟩
  · rintro rfl
    have hexec := exec_notifySqTail_admin hcore hup index
    refine ⟨fun ok => ⟨_, hexec, ?_⟩, fun bad => ?_⟩
    · rw [notifyAdminTail, if_pos ok, besideTags_settleLink]
    · rw [hexec, notifyAdminTail_refused bad]
  · refine ⟨_, exec_notifySqTail_channel hcore hup hr index, ?_, fun hop hrun hpend hroom _ => ?_⟩
    · rw [notifyChannelTail_taken ok, besideTags_settleLink]
    · rw [notifyChannelTail_taken ok]
      refine settleLink_fetch_ne_empty (channelWantsFetch_iff.mpr ?_)
      rw [State.setChan_chan_self]
      exact ⟨hop, hrun, hpend, hroom⟩
  · rw [exec_notifySqTail_channel hcore hup hr, notifyChannelTail_refused bad]

/-! ### Completion heads (R39, R84 to R86) -/

theorem ringIndex_eq_none {id : BitVec 8} (h : 9 ≤ id.toNat) : ringIndex id = none := dif_neg (by omega)

theorem ringIndex_eq_some {id : BitVec 8} {r : Fin 9} (h : id.toNat = r.val) : ringIndex id = some r := by
  rw [ringIndex, dif_pos (by omega)]
  simp [h]

/-- Handing over reads no ring. -/
theorem handOut_setRing (s : State) (r : Fin 9) (x : Ring) (o : Outbound) :
    (s.setRing r x).handOut o = (s.handOut o).setRing r x := by
  rw [handOut_handed, handOut_handed]
  rfl

theorem setRing_setRing (s : State) (r : Fin 9) (x y : Ring) : (s.setRing r x).setRing r y = s.setRing r y := by
  simp only [State.setRing, Vector.set_set]

/-- A vector sent for a ring that has just been replaced. -/
theorem sendVector_setRing (s : State) (r : Fin 9) (x : Ring) :
    sendVector (s.setRing r x) r =
      (s.handOut (.message x.vector)).setRing r { x with unsignalled := 0, timer := none } := by
  rw [sendVector, State.setRing_ring_self, handOut_setRing, setRing_setRing]

theorem raise_chan (s : State) (e : Cause) (c : Fin 16) : (s.raise e).chan c = s.chan c := by
  obtain ⟨ev, q, h⟩ := raise_eq s e
  rw [h]; rfl

theorem raise_entryLaw {s : State} (h : s.EntryLaw) (e : Cause) : (s.raise e).EntryLaw := by
  obtain ⟨ev, q, he⟩ := raise_eq s e
  rw [he]; exact h

theorem handOut_chan (s : State) (o : Outbound) (c : Fin 16) : (s.handOut o).chan c = s.chan c := by
  obtain ⟨q, h⟩ := handOut_eq s o
  rw [h]; rfl

theorem handOut_entryLaw {s : State} (h : s.EntryLaw) (o : Outbound) : (s.handOut o).EntryLaw := by
  obtain ⟨q, he⟩ := handOut_eq s o
  rw [he]; exact h

/-- The ring that a false head leaves FAULTED, its unsignalled entries signalled (R39, R86). -/
def Ring.faulted (x : Ring) : Ring :=
  if 0 < x.unsignalled then { x with state := .faulted, unsignalled := 0, timer := Option.none }
  else { x with state := .faulted }

/-- The vector of a ring with unsignalled entries sent (R86). -/
def signalFault (s : State) (r : Fin 9) : State :=
  if 0 < (s.ring r).unsignalled then s.handOut (.message (s.ring r).vector) else s

theorem signalFault_chan (s : State) (r : Fin 9) (c : Fin 16) : (signalFault s r).chan c = s.chan c := by
  unfold signalFault
  split
  · exact handOut_chan s _ c
  · rfl

theorem signalFault_entryLaw {s : State} (h : s.EntryLaw) (r : Fin 9) : (signalFault s r).EntryLaw := by
  unfold signalFault
  split
  · exact handOut_entryLaw h _
  · exact h

/-- A faulted ring: its vector before the message of CQ_FAULT, then its channels halted (R39, R86). -/
theorem faultRing_signalled (s : State) (r : Fin 9) :
    faultRing s r =
      { ((signalFault s r).setRing r (s.ring r).faulted).raise .cqFault with
        channels := tabulate 16 fun c => (s.chan c).haltFor r } := by
  have hstep : (if 0 < ((s.setRing r { s.ring r with state := .faulted }).ring r).unsignalled then
        sendVector (s.setRing r { s.ring r with state := .faulted }) r
      else s.setRing r { s.ring r with state := .faulted }) = (signalFault s r).setRing r (s.ring r).faulted := by
    simp only [State.setRing_ring_self, signalFault, Ring.faulted]
    split
    · exact sendVector_setRing s r _
    · rfl
  have hchan : ∀ c, (((signalFault s r).setRing r (s.ring r).faulted).raise .cqFault).chan c = s.chan c := fun c => by
    rw [raise_chan]
    exact signalFault_chan s r c
  unfold faultRing
  simp only [hstep, hchan]

theorem faultRing_entryLaw {s : State} (h : s.EntryLaw) (r : Fin 9) : (faultRing s r).EntryLaw := by
  rw [faultRing_signalled]
  exact raise_entryLaw (s := (signalFault s r).setRing r (s.ring r).faulted) (signalFault_entryLaw h r) .cqFault

/-- Settles O37: a head that is not refused releases what it may, or faults its ring. -/
theorem completionHeads : Obligations.CompletionHeads := by
  intro s ring index hcore hup
  have hexec := exec_notifyCqHead hcore hup ring index
  refine ⟨fun hr => by rw [hexec, ringIndex_eq_none hr], fun r hr => ?_⟩
  intro x released
  rw [ringIndex_eq_some hr] at hexec
  refine ⟨fun bad => ?_, fun ha hi he => ⟨fun hrel => ?_, fun hrel => ?_⟩⟩
  · refine hexec.trans (congrArg Host.Outcome.next (if_neg ?_))
    rintro ⟨ha, hi⟩
    exact bad.elim (fun h => h ha) fun h => absurd hi (Nat.not_lt.mpr h)
  · have htake : takeHead s r index.toNat = s.setRing r { x with unconsumed := x.unconsumed - released } := if_pos hrel
    refine concludes_of_next (hexec.trans (congrArg Host.Outcome.next ((if_pos ⟨ha, hi⟩).trans ?_))) ?_
    · rw [htake]
    · exact he
  · have htake : takeHead s r index.toNat = faultRing s r := if_neg (Nat.not_le.mpr hrel)
    have hc := concludes_of_next (hexec.trans (congrArg Host.Outcome.next ((if_pos ⟨ha, hi⟩).trans
      (congrArg conclude htake)))) (faultRing_entryLaw he r)
    rw [faultRing_signalled] at hc
    have hhalt : (fun c => (s.chan c).haltFor r) = fun c =>
        if (s.chan c).ring = r ∧ ((s.chan c).state = .running ∨ (s.chan c).state = .paused) then
          { s.chan c with state := .halted }
        else s.chan c := rfl
    rw [hhalt] at hc
    exact hc

end Sys2Proof.Machine
end

section
/-! SUPPORT. Round-robin search (R35, R82, R101, R169), and the Slot Scheduler's choice with the start of its descriptor
(R33 to R35, R37, R51, R53). -/

-- One theorem at a time, as in the tests above: fewer threads than the memory limit allows.
set_option Elab.async false

namespace Sys2Proof.Machine

/-! ### Round-robin search -/

/-- How many indices a round-robin search after `p` passes before it comes to `k`. -/
def stepsAfter {n : Nat} (p k : Fin n) : Nat := (k.val + (n - 1) - p.val) % n

theorem stepsAfter_eq {n : Nat} (p k : Fin n) :
    stepsAfter p k = if p.val < k.val then k.val - p.val - 1 else k.val + (n - 1) - p.val := by
  unfold stepsAfter
  split
  · rw [show k.val + (n - 1) - p.val = k.val - p.val - 1 + n by omega, Nat.add_mod_right, Nat.mod_eq_of_lt (by omega)]
  · exact Nat.mod_eq_of_lt (by omega)

theorem stepsAfter_lt {n : Nat} [NeZero n] (p k : Fin n) : stepsAfter p k < n := Nat.mod_lt _ (NeZero.pos n)

/-- The index that a round-robin search after `p` comes to after `i` others. -/
def indexAfter {n : Nat} [NeZero n] (p : Fin n) (i : Nat) : Fin n := Fin.ofNat n (p.val + i + 1)

theorem indexAfter_val {n : Nat} [NeZero n] (p : Fin n) {i : Nat} (hi : i < n) :
    (indexAfter p i).val = if p.val + i + 1 < n then p.val + i + 1 else p.val + i + 1 - n := by
  show (p.val + i + 1) % n = _
  split
  · exact Nat.mod_eq_of_lt ‹_›
  · rw [Nat.mod_eq_sub_mod (by omega), Nat.mod_eq_of_lt (by omega)]

theorem indexAfter_stepsAfter {n : Nat} [NeZero n] (p k : Fin n) : indexAfter p (stepsAfter p k) = k := by
  apply Fin.ext
  rw [indexAfter_val p (stepsAfter_lt p k), stepsAfter_eq]
  split_ifs <;> omega

theorem stepsAfter_indexAfter {n : Nat} [NeZero n] (p : Fin n) {i : Nat} (hi : i < n) :
    stepsAfter p (indexAfter p i) = i := by
  rw [stepsAfter_eq, indexAfter_val p hi]
  split_ifs <;> omega

/-- A round-robin search finds the index that satisfies its condition after the fewest others. -/
theorem searchAfter_of_least {n : Nat} [NeZero n] {p k : Fin n} {f : Fin n → Bool} (hk : f k = true)
    (hleast : ∀ j, f j = true → stepsAfter p k ≤ stepsAfter p j) : searchAfter p f = some k := by
  have hrange : (List.range n).find? (f ∘ indexAfter p) = some (stepsAfter p k) := by
    rw [List.find?_range_eq_some]
    refine ⟨?_, List.mem_range.mpr (stepsAfter_lt p k), fun i hi => ?_⟩
    · rw [Function.comp_apply, indexAfter_stepsAfter, hk]
    · by_contra hf
      have hin : i < n := hi.trans (stepsAfter_lt p k)
      have := hleast (indexAfter p i) (by simpa using hf)
      rw [stepsAfter_indexAfter p hin] at this
      omega
  show ((List.range n).map (indexAfter p)).find? f = some k
  rw [List.find?_map, hrange, Option.map_some, indexAfter_stepsAfter]

/-! ### The choice (R33 to R35) -/

/-- What makes a channel eligible (R33). -/
theorem eligible_iff {s : State} {d : Fin 16} :
    eligible s d = true ↔
      ((s.ctl.op = .active ∧ (s.chan d).state = .running) ∨
          (s.ctl.op = .quiescing ∧ (s.chan d).state ≠ .absent ∧ (s.chan d).state ≠ .deleting ∧
            (s.ring (s.chan d).ring).state ≠ .faulted)) ∧
        (s.chan d).queue ≠ [] ∧ (s.chan d).slot = none ∧ (s.chan d).held.length < 4 := by
  have hstate : ∀ x : ChannelState,
      ((x = .running ∨ x = .paused) ∨ x = .halted) ↔ x ≠ .absent ∧ x ≠ .deleting := fun x => by cases x <;> decide
  simp only [eligible, Bool.and_eq_true, Bool.or_eq_true, beq_iff_eq, bne_iff_ne, hstate, decide_eq_true_eq,
    Bool.not_eq_true', List.isEmpty_eq_false_iff, and_assoc]

theorem eligibleIn_iff {s : State} {g : ChannelClass} {d : Fin 16} :
    eligibleIn s g d = true ↔ eligible s d = true ∧ (s.chan d).cls = g := by
  simp only [eligibleIn, Bool.and_eq_true, beq_iff_eq]

/-- The class of a choice is URGENT, or BULK where no URGENT channel is eligible (R34). -/
theorem choiceClass_eq {s : State} {c : Fin 16} {g : ChannelClass} (hc : eligibleIn s g c = true)
    (hg : g = .urgent ∨ ∀ d, ¬eligibleIn s .urgent d = true) : choiceClass s = g := by
  cases g with
  | urgent => exact if_pos (List.any_eq_true.mpr ⟨c, List.mem_finRange c, hc⟩)
  | bulk =>
    refine if_neg fun h => ?_
    obtain ⟨d, -, hd⟩ := List.any_eq_true.mp h
    exact (hg.resolve_left (by decide)) d hd

/-- The lowest-numbered IDLE slot (R34). -/
theorem idleSlot_eq {s : State} {k : Fin 4} (hk : (s.slot k).state = .idle)
    (hlow : ∀ j, j < k → (s.slot j).state ≠ .idle) : idleSlot s = some k := by
  rw [idleSlot, allSlots, List.find?_eq_some_iff_getElem]
  refine ⟨by simpa using hk, k.val, by simp, by simp, fun j hj => ?_⟩
  have := hlow ⟨j, hj.trans k.isLt⟩ hj
  simpa using this

/-- The turn of a class after its channel `c` is chosen (R35). -/
def State.turnAfter (s : State) (g : ChannelClass) (c : Fin 16) : Turn :=
  if eligibleIn s g (s.sched.turn g).pointer = true ∧ 0 < (s.sched.turn g).credit then
    { s.sched.turn g with credit := (s.sched.turn g).credit - 1 }
  else { pointer := c, credit := (s.chan c).weight - 1 }

/-- The channel of a class: the one whose turn goes on, or the next eligible one (R35). -/
theorem chooseIn_eq {s : State} {g : ChannelClass} {c : Fin 16} (hc : eligibleIn s g c = true)
    (h : let keeps := eligibleIn s g (s.sched.turn g).pointer = true ∧ 0 < (s.sched.turn g).credit
      (keeps ∧ c = (s.sched.turn g).pointer) ∨
        (¬keeps ∧
          ∀ d, eligibleIn s g d = true →
            stepsAfter (s.sched.turn g).pointer c ≤ stepsAfter (s.sched.turn g).pointer d)) :
    chooseIn s g = some (c, s.turnAfter g c) := by
  obtain ⟨hk, rfl⟩ | ⟨hk, hleast⟩ := h
  · simp only [chooseIn, State.turnAfter, if_pos hk]
  · simp only [chooseIn, State.turnAfter, if_neg hk, searchAfter_of_least hc hleast, Option.map_some]

/-! ### The start of a descriptor (R35, R37, R51, R53) -/

/-- The slot in another state, with another end cause. -/
def Slot.moved (sl : Slot) (x : SlotState) (e : EndCause) : Slot := { sl with state := x, cause := e }

/-- The end happening does not depend on the state and the end cause of its slot. -/
theorem endSlot_setSlot_moved (s : State) (k : Fin 4) (x : SlotState) (e : EndCause) (st : Status) :
    endSlot (s.setSlot k ((s.slot k).moved x e)) k st = endSlot s k st := by
  have hs := State.setSlot_slot_self s k ((s.slot k).moved x e)
  have hrefs : endReferences (s.setSlot k ((s.slot k).moved x e)) ((s.slot k).moved x e) st =
      (endReferences s (s.slot k) st).setSlot k ((s.slot k).moved x e) := by
    rw [endReferences_eq, endReferences_eq, releaseRefs_setSlot]
    rfl
  have hchan : ∀ t : State, endInChannel (t.setSlot k ((s.slot k).moved x e)) ((s.slot k).moved x e) st =
      (endInChannel t (s.slot k) st).setSlot k ((s.slot k).moved x e) := fun t => by
    rw [endInChannel_frame, endInChannel_frame]
    rfl
  by_cases h : (s.slot k).stop = .silent
  · rw [endSlot_silent st h, endSlot_silent st (by rw [hs]; exact h), hs, hrefs, setSlot_setSlot]
  · rw [endSlot_loud st h, endSlot_loud st (by rw [hs]; exact h), hs, hrefs, hchan, setSlot_setSlot]

theorem fieldStatus_none {r : Record} (h : descKind r = none) : fieldStatus r = some .badKind := by
  simp only [fieldStatus, h]

theorem fieldStatus_mark {r : Record} (h : descKind r = some .mark) : fieldStatus r = none := by
  simp only [fieldStatus, h]

theorem fieldStatus_length {r : Record} (hn : descKind r ≠ none) (hm : descKind r ≠ some .mark) :
    fieldStatus r = if 1 ≤ descLength r ∧ descLength r ≤ 16777216 then none else some .badLength := by
  cases h : descKind r with
  | none => exact absurd h hn
  | some kind =>
    cases kind with
    | mark => exact absurd h hm
    | writeIn | readOut | copy | fill | checksum => simp only [fieldStatus, h]

theorem checkFields_refused {s : State} {k : Fin 4} {st : Status} (h : fieldStatus (s.slot k).entry = some st) :
    checkFields s k = endSlot s k st := by
  simp only [checkFields, h, refuseSlot_eq_endSlot]

theorem checkFields_waits {s : State} {k : Fin 4} (h : fieldStatus (s.slot k).entry = none)
    (hm : descKind (s.slot k).entry ≠ some .mark) : checkFields s k = s := by
  simp only [checkFields, h, if_neg hm]

/-- A channel after a MARK with this value (R37). -/
def Channel.marked (x : Channel) (v : Word32) : Channel :=
  { x with mark := if x.clean = true then v else x.mark, clean := true }

theorem carryOutMark_marked (s : State) (c : Fin 16) (r : Record) :
    carryOutMark s c r =
      (s.setChan c ((s.chan c).marked (descMark r)), if (s.chan c).clean = true then .ok else .markBroken) := by
  unfold carryOutMark Channel.marked
  cases h : (s.chan c).clean <;> simp only [h] <;> rfl

/-- A MARK is carried out and ends (R53). -/
theorem checkFields_mark {s : State} {k : Fin 4} (hm : descKind (s.slot k).entry = some .mark) :
    checkFields s k =
      endSlot
        (s.setChan (s.slot k).chan ((s.chan (s.slot k).chan).marked (descMark (s.slot k).entry))) k
        (if (s.chan (s.slot k).chan).clean = true then .ok else .markBroken) := by
  simp only [checkFields, fieldStatus_mark hm, if_pos hm, carryOutMark_marked]
  exact endSlot_setSlot_moved (s.setChan _ _) k .ending .complete _

/-! ### SLOT_SCHEDULER_CHOICE -/

/-- The oldest fetched descriptor started in slot `k`, and the turn of its class (R35). -/
def State.started (s : State) (k : Fin 4) (c : Fin 16) (f : Fetched) (rest : List Fetched) (g : ChannelClass) : State :=
  { startSlot s k c f rest with sched := s.sched.setTurn g (s.turnAfter g c) }

theorem started_slot (s : State) (k : Fin 4) (c : Fin 16) (f : Fetched) (rest : List Fetched) (g : ChannelClass) :
    (s.started k c f rest g).slot k =
      { Slot.none with
        state := .check, entry := f.entry, chan := c, headAfter := f.headAfter, cls := (s.chan c).cls
        crc := crcStart } := State.setSlot_slot_self _ _ _

theorem started_chan (s : State) (k : Fin 4) (c : Fin 16) (f : Fetched) (rest : List Fetched) (g : ChannelClass) :
    (s.started k c f rest g).chan c = { s.chan c with queue := rest, slot := some k } := State.setChan_chan_self s c _

theorem exec_slotSchedulerChoice {s : State} {k : Fin 4} {c : Fin 16} {g : ChannelClass} {f : Fetched}
    {rest : List Fetched} (hcore : s.power.core = true) (hk : idleSlot s = some k) (hg : choiceClass s = g)
    (hc : chooseIn s g = some (c, s.turnAfter g c)) (hq : (s.chan c).queue = f :: rest) :
    exec .slotSchedulerChoice s = .next (conclude (checkFields (s.started k c f rest g) k)) := by
  have hcore' : ¬s.power.core = false := by simp [hcore]
  show execSlotSchedulerChoice s = _
  simp only [execSlotSchedulerChoice, if_neg hcore', hg, hk, hc, scheduleChoice, hq]
  rfl

/-- Settles O48: the choice by `chooseIn_eq`, then what the field tests make of the descriptor. -/
theorem slotSchedulerChoice : Obligations.SlotSchedulerChoice := by
  intro s k c cls hcore he x elig inClass turn keeps hidle hlow hin hcls hchoice f hf
  have hinClass : ∀ g d, eligibleIn s g d = true ↔ inClass g d := fun g d =>
    eligibleIn_iff.trans (and_congr_left' eligible_iff)
  have hturn : s.sched.turn cls = turn := by cases cls <;> rfl
  have hkeeps : (eligibleIn s cls (s.sched.turn cls).pointer = true ∧ 0 < (s.sched.turn cls).credit) ↔ keeps := by
    rw [hinClass, hturn]
  have hc : eligibleIn s cls c = true := (hinClass cls c).mpr hin
  have hclass : choiceClass s = cls := choiceClass_eq hc (hcls.imp_right fun h d e => h d ((hinClass _ d).mp e))
  have hchosen : chooseIn s cls = some (c, s.turnAfter cls c) := chooseIn_eq hc (by
    simp only [hkeeps]
    rw [hturn]
    exact hchoice.imp_right fun h => ⟨h.1, fun d hd => h.2 d ((hinClass cls d).mp hd)⟩)
  obtain ⟨rest, hq⟩ : ∃ rest, x.queue = f :: rest := List.head?_eq_some_iff.mp hf
  have hexec := exec_slotSchedulerChoice hcore (idleSlot_eq hidle hlow) hclass hchosen hq
  intro r after u lengthOk
  have hafter : s.turnAfter cls c = after := by
    simp only [State.turnAfter, hkeeps]
    rw [hturn]
  have hu : s.started k c f rest cls = u := by
    have hsched : s.sched.setTurn cls after =
        if cls = .urgent then { s.sched with urgent := after } else { s.sched with bulk := after } := by
      cases cls <;> rfl
    have hdrop : x.queue.drop 1 = rest := by rw [hq]; rfl
    simp only [State.started, hafter, hsched, u, hdrop]
    rfl
  have hslot := started_slot s k c f rest cls
  have hchan := started_chan s k c f rest cls
  rw [hu] at hexec hslot hchan
  have hentry : (u.slot k).entry = r := by rw [hslot]
  have heu : u.EntryLaw := he
  refine ⟨fun hn => ?_, fun hm => ?_, fun hn hm => ⟨fun hl => ?_, fun hl => ?_⟩⟩
  · rw [checkFields_refused (by rw [hentry]; exact fieldStatus_none hn)] at hexec
    exact concludes_of_next hexec (endSlot_entryLaw heu k _)
  · rw [checkFields_mark (by rw [hentry]; exact hm), hslot, hchan] at hexec
    have hc := concludes_of_next hexec (endSlot_entryLaw (s := u.setChan _ _) heu k _)
    rw [hchan]
    exact hc
  · rw [checkFields_refused (by rw [hentry, fieldStatus_length hn hm, if_neg hl])] at hexec
    exact concludes_of_next hexec (endSlot_entryLaw heu k _)
  · rw [checkFields_waits (by rw [hentry, fieldStatus_length hn hm, if_pos hl]) (by rw [hentry]; exact hm)] at hexec
    exact concludes_of_next hexec heu

end Sys2Proof.Machine
end

section
/-! SUPPORT. The Completion Writer: one entry written, with what coalescing makes of it, where completions are taken from,
and completions that are discarded or made without a slot (R44, R80 to R83, R87 to R89, R134). -/

-- One theorem at a time, as in the tests above: fewer threads than the memory limit allows.
set_option Elab.async false

namespace Sys2Proof.Machine

/-! ### One entry written (R80, R81, R88) -/

theorem entryBytes_eq (f : Completion) (lap : Bool) :
    entryBytes f lap =
      leBytes 4 f.tag.toNat ++ leBytes 4 f.bytesDone ++ leBytes 4 f.result.toNat ++
        leBytes 4 (f.head % 4096 + 2 ^ 15 * lap.toNat + 2 ^ 16 * f.status.code + 2 ^ 24 * (f.channel % 256)) := by
  cases lap <;> rfl

/-- A completion written signals its ring at once: NOTIFY, the threshold reached, or no delay (R88). -/
abbrev Ring.signals (x : Ring) (f : Completion) : Prop :=
  f.notify = true ∨ x.unsignalled + 1 = x.threshold ∨ x.delay = 0

/-- The ring after one entry and its coalescing (R81, R88). -/
def Ring.coalesced (x : Ring) (f : Completion) : Ring :=
  { x.written with
    unsignalled := if x.signals f then 0 else x.unsignalled + 1
    timer := if x.signals f then Option.none else some (x.timer.getD (x.delay * 10)) }

/-- The bytes of one entry handed over, then the vector where the ring is signalled (R81, R88). -/
def handEntry (s : State) (r : Fin 9) (f : Completion) : State :=
  let w := s.handOut (.write ((s.ring r).base + BitVec.ofNat 64 (16 * (s.ring r).write)) (entryBytes f (s.ring r).lap))
  if (s.ring r).signals f then w.handOut (.message (s.ring r).vector) else w

theorem writeEntry_coalesced (s : State) (r : Fin 9) (f : Completion) :
    writeEntry s r f = (handEntry s r f).setRing r ((s.ring r).coalesced f) := by
  unfold writeEntry coalesce handEntry
  simp only [State.setRing_ring_self]
  by_cases h : (s.ring r).signals f
  · have hw : f.notify = true ∨ (s.ring r).written.unsignalled = (s.ring r).written.threshold ∨
        (s.ring r).written.delay = 0 := h
    rw [if_pos hw, if_pos h, sendVector_setRing]
    simp only [Ring.coalesced, if_pos h]
    rfl
  · have hw : ¬(f.notify = true ∨ (s.ring r).written.unsignalled = (s.ring r).written.threshold ∨
        (s.ring r).written.delay = 0) := h
    rw [if_neg hw, if_neg h, setRing_setRing]
    simp only [Ring.coalesced, if_neg h]
    rfl

theorem writeEntry_entryLaw {s : State} (h : s.EntryLaw) (r : Fin 9) (f : Completion) : (writeEntry s r f).EntryLaw := by
  obtain ⟨q, rs, e⟩ := writeEntry_eq s r f
  rw [e]
  exact h

/-! ### COMPLETION_WRITE, at work (R81 to R83, R134) -/

theorem atWork_iff {s : State} : s.atWork = true ↔ s.ctl.op = .active ∨ s.ctl.op = .quiescing := by
  simp only [State.atWork, Bool.or_eq_true, beq_iff_eq]

theorem hasRoom_iff {x : Ring} : x.hasRoom = true ↔ x.state = .active ∧ x.unconsumed < x.size := by
  simp only [Ring.hasRoom, Bool.and_eq_true, beq_iff_eq, decide_eq_true_eq]

theorem exec_completionWrite {s : State} {r : Fin 9} (hcore : s.power.core = true) (hroom : (s.ring r).hasRoom = true) :
    exec (.completionWrite r) s =
      .next
        (if s.atWork then writeAtWork s r
        else if s.ctl.op = .draining ∧ s.ctl.phase = .flush then writeInFlush s r
        else s) :=
  congrArg Host.Outcome.next (if_neg (by simp [hcore, hroom]))

/-- The channel next in turn at a ring (R82). -/
theorem writerChoice_eq {s : State} {r : Fin 9} {c : Fin 16} (hc : (s.chan c).ring = r ∧ (s.chan c).held ≠ [])
    (hleast : ∀ d, (s.chan d).ring = r ∧ (s.chan d).held ≠ [] →
      stepsAfter (s.ring r).service c ≤ stepsAfter (s.ring r).service d) :
    writerChoice s r = some c := by
  have hwaits : ∀ d, ((s.chan d).ring == r && !(s.chan d).held.isEmpty) = true ↔
      (s.chan d).ring = r ∧ (s.chan d).held ≠ [] := fun d => by
    simp only [Bool.and_eq_true, beq_iff_eq, Bool.not_eq_true', List.isEmpty_eq_false_iff]
  exact searchAfter_of_least ((hwaits c).mpr hc) fun d hd => hleast d ((hwaits d).mp hd)

theorem writeAtWork_admin {s : State} {f : Completion} (h : s.admin.handover = some f) :
    writeAtWork s 0 = conclude (writeFromAdmin s f) := by
  simp only [writeAtWork, h, if_true]

theorem writeAtWork_channel {s : State} {r : Fin 9} {c : Fin 16} {f : Completion} {held : List Completion} (hr : r ≠ 0)
    (hc : writerChoice s r = some c) (hf : (s.chan c).held = f :: held) :
    writeAtWork s r = conclude (writeFromChannel s r c f) := by
  simp only [writeAtWork, if_neg hr, hc, hf]

theorem popped_held {x : Channel} (h : x.held ≠ []) : x.popped = { x with held := x.held.drop 1 } := by
  cases hx : x.held with
  | nil => exact absurd hx h
  | cons f rest => simp only [Channel.popped, hx, List.drop_succ_cons, List.drop_zero]

/-! ### COMPLETION_DISCARD and DELETE_CONVERSION, at work (R44, R46, R87) -/

theorem exec_completionDiscard {s : State} (src : CompletionSource) (hcore : s.power.core = true) :
    exec (.completionDiscard src) s =
      .next
        (if s.atWork then discardAtWork s src
        else if s.ctl.op = .draining ∧ s.ctl.phase = .flush then discardInFlush s src
        else s) :=
  congrArg Host.Outcome.next (if_neg (by simp [hcore]))

theorem discardAtWork_channel {s : State} {c : Fin 16}
    (h : (s.chan c).held ≠ [] ∧ (s.ring (s.chan c).ring).state = .faulted ∧
      ((s.chan c).state = .deleting ∨ s.ctl.op = .quiescing)) :
    discardAtWork s (.channel c) = conclude (s.setChan c { s.chan c with held := (s.chan c).held.drop 1 }) := if_pos h

theorem discardAtWork_admin {s : State} (h : s.admin.handover.isSome = true ∧ (s.ring 0).state = .faulted) :
    discardAtWork s .admin = conclude { s with admin := s.admin.discarded } := if_pos h

/-- Where a channel's fetched descriptors end ABORTED (R44, R46). -/
theorem converts_iff {s : State} {c : Fin 16} :
    converts s c = true ↔
      s.atWork = true ∧ (s.chan c).slot = none ∧ (s.chan c).held.length < 4 ∧
        ((s.chan c).state = .deleting ∨
          (s.ctl.op = .quiescing ∧ (s.chan c).state ≠ .absent ∧ (s.ring (s.chan c).ring).state = .faulted)) := by
  simp only [converts, Bool.and_eq_true, Bool.or_eq_true, Option.isNone_iff_eq_none, decide_eq_true_eq, beq_iff_eq,
    bne_iff_ne, and_assoc]

theorem converted_cons {x : Channel} {f : Fetched} {rest : List Fetched} (c : Fin 16) (h : x.queue = f :: rest) :
    x.converted c =
      { x with
        queue := rest, clean := false, completed := x.completed + 1
        state := if x.stopOnError = true ∧ (x.state = .running ∨ x.state = .paused) then .halted else x.state
        held := x.held ++ [unstartedCompletion c f .aborted] } := by
  have hharm : Status.aborted.harmless = false := rfl
  simp only [Channel.converted, h, Channel.ended, hharm, Bool.and_false, true_and]

/-- A conversion carried out (R44). -/
theorem exec_deleteConversion {s : State} {c : Fin 16} {f : Fetched} {rest : List Fetched} (hcore : s.power.core = true)
    (hc : converts s c = true) (hq : (s.chan c).queue = f :: rest) :
    exec (.deleteConversion c) s = .next (conclude (s.setChan c ((s.chan c).converted c))) :=
  congrArg Host.Outcome.next (if_pos ⟨hcore, hc, by simp [hq]⟩)

/-! ### DELAY_TIMER_EXPIRY (R89) -/

theorem elapse_ring (s : State) (n : Nat) (r : Fin 9) :
    (s.elapse n).ring r = { s.ring r with timer := countDown n (s.ring r).timer } := tabulate_get _ r

theorem exec_delayTimerExpiry {s : State} {r : Fin 9} {left : Nat} (hcore : s.power.core = true)
    (ha : (s.ring r).state = .active) (ht : (s.ring r).timer = some left) :
    exec (.delayTimerExpiry r) s =
      .next
        (((s.elapse left).handOut (.message (s.ring r).vector)).setRing r
          { s.ring r with unsignalled := 0, timer := none }) := by
  have hcore' : ¬s.power.core = false := by simp [hcore]
  have hsent : delayExpired (s.elapse left) r = sendVector (s.elapse left) r := if_pos (by rw [elapse_ring]; exact ha)
  show execDelayTimerExpiry r s = _
  simp only [execDelayTimerExpiry, if_neg hcore', ht, hsent, sendVector, elapse_ring]

/-- Settles O59: the entry by `writeEntry_coalesced`, each command by what its branch takes and leaves. -/
theorem completionsWritten : Obligations.CompletionsWritten := by
  intro s r c hcore he x room working waits y
  refine ⟨fun f _ => ?_, fun hw hr => ⟨?_, fun hr0 hc hleast f hf => ?_⟩, fun ha left hl =>
    exec_delayTimerExpiry hcore ha hl, fun hw hh hq hs => ?_, fun hw ha hq => ?_, fun hw hs hh hd f hf => ?_⟩
  · intro sends w
    have hwrite := writeEntry_coalesced s r f
    rw [handEntry, entryBytes_eq] at hwrite
    exact hwrite
  · rintro rfl f hf
    refine concludes_of_next ((exec_completionWrite hcore (hasRoom_iff.mpr hr)).trans ?_)
      (x := writeFromAdmin s f) (writeEntry_entryLaw (s := { s with admin := s.admin.posted }) he 0 f)
    rw [if_pos (atWork_iff.mpr hw), writeAtWork_admin hf]
  · obtain ⟨rest, hheld⟩ : ∃ rest, y.held = f :: rest := List.head?_eq_some_iff.mp hf
    have hexec := exec_completionWrite hcore (hasRoom_iff.mpr hr)
    rw [if_pos (atWork_iff.mpr hw), writeAtWork_channel hr0 (writerChoice_eq hc hleast) hheld, writeFromChannel,
      popped_held hc.2] at hexec
    exact concludes_of_next hexec (writeEntry_entryLaw (s := (s.setChan _ _).setRing _ _) he r f)
  · have hexec := exec_completionDiscard (.channel c) hcore
    rw [if_pos (atWork_iff.mpr hw), discardAtWork_channel ⟨hh, hq, hs⟩] at hexec
    exact concludes_of_next hexec he
  · have hexec := exec_completionDiscard .admin hcore
    rw [if_pos (atWork_iff.mpr hw), discardAtWork_admin ⟨ha, hq⟩] at hexec
    exact concludes_of_next hexec he
  · obtain ⟨rest, hqueue⟩ : ∃ rest, y.queue = f :: rest := List.head?_eq_some_iff.mp hf
    have hexec := exec_deleteConversion hcore (converts_iff.mpr ⟨atWork_iff.mpr hw, hs, hh, hd⟩) hqueue
    rw [converted_cons c hqueue] at hexec
    have hdrop : y.queue.drop 1 = rest := by rw [hqueue]; rfl
    rw [hdrop]
    exact concludes_of_next hexec he

end Sys2Proof.Machine
end

section
/-! SUPPORT. The passages that end a deletion and a quiesce (R44, R46, R93, R153), and the vectors that every ring sends
when rings go (R93, R160). -/

-- One theorem at a time, as in the tests above: fewer threads than the memory limit allows.
set_option Elab.async false

namespace Sys2Proof.Machine

/-! ### Every ring's vector (R93, R160) -/

/-- The ring has entries to signal. -/
def Ring.unsent (x : Ring) : Bool := decide (x.state = .active ∧ 0 < x.unsignalled)

theorem handed_message {l : Link} (hup : l.up = true) (hme : l.messageEnable = true) (v : Nat) :
    l.handed (.message v) = { l with outbound := l.outbound ++ [.message v] } := by
  rw [Link.handed, if_pos]
  simp [Link.takes, hup, hme]

theorem signalRest_unsent (s : State) (r : Fin 9) :
    signalRest s r = if (s.ring r).unsent then sendVector s r else s :=
  if_congr decide_eq_true_iff.symm rfl rfl

theorem signalRest_link (s : State) (r : Fin 9) :
    (signalRest s r).link = if (s.ring r).unsent then s.link.handed (.message (s.ring r).vector) else s.link := by
  rw [signalRest_unsent]
  split
  · rw [sendVector, handOut_handed]
    rfl
  · rfl

theorem sendVector_ring (s : State) (r q : Fin 9) :
    (sendVector s r).ring q = if q = r then { s.ring r with unsignalled := 0, timer := none } else s.ring q := by
  rw [sendVector, handOut_handed]
  exact State.setRing_ring _ _ _ _

theorem signalRest_ring_of_ne (s : State) {r q : Fin 9} (h : q ≠ r) : (signalRest s r).ring q = s.ring q := by
  rw [signalRest_unsent]
  split
  · rw [sendVector_ring, if_neg h]
  · rfl

/-- The vectors of the rings of a list with entries to signal, in the order of the list. -/
def State.unsentVectors (s : State) (l : List (Fin 9)) : List Outbound :=
  (l.filter fun q => (s.ring q).unsent).map fun q => .message (s.ring q).vector

theorem unsentVectors_eq (s : State) (l : List (Fin 9)) :
    s.unsentVectors l =
      (l.filter fun q => decide ((s.ring q).state = .active ∧ 0 < (s.ring q).unsignalled)).map fun q =>
        .message (s.ring q).vector := rfl

theorem unsentVectors_congr {s t : State} {l : List (Fin 9)}
    (h : ∀ q ∈ l, (t.ring q).unsent = (s.ring q).unsent ∧ (t.ring q).vector = (s.ring q).vector) :
    t.unsentVectors l = s.unsentVectors l := by
  have hfilter : (l.filter fun q => (t.ring q).unsent) = l.filter fun q => (s.ring q).unsent :=
    List.filter_congr fun q hq => (h q hq).1
  unfold State.unsentVectors
  rw [hfilter]
  exact List.map_congr_left fun q hq => by rw [(h q (List.mem_of_mem_filter hq)).2]

theorem unsentVectors_cons (s : State) (r : Fin 9) (l : List (Fin 9)) :
    s.unsentVectors (r :: l) =
      (if (s.ring r).unsent then [.message (s.ring r).vector] else []) ++ s.unsentVectors l := by
  unfold State.unsentVectors
  rw [List.filter_cons]
  cases (s.ring r).unsent <;> rfl

theorem foldl_signalRest_link {l : List (Fin 9)} (hl : l.Nodup) {s : State} (hup : s.link.up = true)
    (hme : s.link.messageEnable = true) :
    (l.foldl signalRest s).link = { s.link with outbound := s.link.outbound ++ s.unsentVectors l } := by
  induction l generalizing s with
  | nil => simp [State.unsentVectors]
  | cons r l ih =>
    obtain ⟨hr, hl⟩ := List.nodup_cons.mp hl
    have hrest : (signalRest s r).unsentVectors l = s.unsentVectors l := unsentVectors_congr fun q hq => by
      rw [signalRest_ring_of_ne s (ne_of_mem_of_not_mem hq hr)]
      exact ⟨rfl, rfl⟩
    have hlink := signalRest_link s r
    rw [unsentVectors_cons]
    by_cases h : (s.ring r).unsent = true
    · rw [if_pos h, handed_message hup hme] at hlink
      rw [List.foldl_cons, ih hl (by rw [hlink]; exact hup) (by rw [hlink]; exact hme), hlink, hrest, if_pos h,
        List.append_assoc]
    · rw [if_neg h] at hlink
      rw [List.foldl_cons, ih hl (by rw [hlink]; exact hup) (by rw [hlink]; exact hme), hlink, hrest, if_neg h,
        List.nil_append]

/-- Every ring with unsignalled entries sends its vector, in ascending ring id, while the link takes messages. -/
theorem signalAll_link {s : State} (hup : s.link.up = true) (hme : s.link.messageEnable = true) :
    (signalAll s).link = { s.link with outbound := s.link.outbound ++ s.unsentVectors allRings } :=
  foldl_signalRest_link (List.nodup_finRange 9) hup hme

/-! ### A deletion that ends (R44) -/

theorem isEmpty_iff {x : Channel} : x.isEmpty = true ↔ x.queue = [] ∧ x.slot = none ∧ x.held = [] := by
  simp only [Channel.isEmpty, Bool.and_eq_true, List.isEmpty_iff, Option.isNone_iff_eq_none, and_assoc]

theorem deletingChannel_eq_some {s : State} {p : AdminCommand} {c : Fin 16} (hp : s.admin.command = some p)
    (hw : p.wait = .channelEmpty c) : deletingChannel s = some c := by
  obtain ⟨entry, headAfter, wait⟩ := p
  cases hw
  simp only [deletingChannel, hp]

theorem deletingChannel_eq_none {s : State} (h : ∀ p ∈ s.admin.command, ∀ d, p.wait ≠ .channelEmpty d) :
    deletingChannel s = none := by
  unfold deletingChannel
  split
  · rename_i hp
    exact absurd rfl (h _ hp _)
  · rfl

theorem endDeletion_of_none {s : State} (h : deletingChannel s = none) : endDeletion s = s := by
  simp only [endDeletion, h]

theorem endDeletion_waits {s : State} {c : Fin 16} (hd : deletingChannel s = some c)
    (h : ¬(s.atWork = true ∧ (s.chan c).state = .deleting ∧ (s.chan c).isEmpty = true)) : endDeletion s = s := by
  simp only [endDeletion, hd, if_neg h]

theorem endDeletion_idle {s : State} (h : ¬s.atWork = true) : endDeletion s = s := by
  cases hd : deletingChannel s with
  | none => exact endDeletion_of_none hd
  | some c => exact endDeletion_waits hd fun e => h e.1

/-- A deletion that ends: the channel goes, and the command's completion carries its count (R44). -/
theorem endDeletion_ends {s : State} {c : Fin 16} {p : AdminCommand} (hp : s.admin.command = some p)
    (hw : p.wait = .channelEmpty c) (hat : s.atWork = true) (hd : (s.chan c).state = .deleting)
    (he : (s.chan c).isEmpty = true) :
    endDeletion s =
      { dropChannel s c with
        admin :=
          { s.admin with
            command := some { p with wait := .none }
            handover := some (adminCompletion p .ok (s.chan c).completed) } } := by
  have hcommand : (dropChannel s c).admin.command = some p := hp
  simp only [endDeletion, deletingChannel_eq_some hp hw, if_pos (And.intro hat (And.intro hd he)), State.handOverAdmin, hcommand]
  rfl

/-! ### Channels that leave during QUIESCING (R46) -/

/-- A channel that leaves during QUIESCING: it is empty, and its fetch record holds no read (R46). -/
def State.quits (s : State) (d : Fin 16) : Bool :=
  decide
    ((s.chan d).state ≠ .absent ∧ (s.chan d).state ≠ .deleting ∧ (s.chan d).isEmpty = true ∧
      (s.fetchOf d).holdsRead = false)

theorem quits_congr {s t : State} {d : Fin 16} (hc : t.chan d = s.chan d) (hf : t.fetchOf d = s.fetchOf d) :
    t.quits d = s.quits d := by
  simp only [State.quits, hc, hf]

theorem holdsRead_eq_false {f : FetchRecord} : f.holdsRead = false ↔ f = .empty ∨ f = .requesting := by
  cases f <;> simp [FetchRecord.holdsRead]

theorem quiesceChannel_eq (s : State) (c : Fin 16) :
    quiesceChannel s c = if s.quits c then dropChannel s c else s :=
  if_congr decide_eq_true_iff.symm rfl rfl

theorem quiesceChannel_chan (s : State) (c d : Fin 16) :
    (quiesceChannel s c).chan d = if d = c ∧ s.quits c = true then Channel.none else s.chan d := by
  rw [quiesceChannel_eq]
  cases s.quits c with
  | true =>
    have h : (dropChannel s c).chan d = if d = c then Channel.none else s.chan d :=
      State.setChan_chan (unbind s (s.chan c).ring) c d Channel.none
    simpa using h
  | false => simp

theorem quiesceChannel_fetchOf (s : State) {c d : Fin 16} (h : d ≠ c) :
    (quiesceChannel s c).fetchOf d = s.fetchOf d := by
  rw [quiesceChannel_eq]
  split
  · exact (State.setFetch_fetchOf _ _ _ _).trans (if_neg h)
  · rfl

theorem dropChannel_ring (s : State) (c : Fin 16) (q : Fin 9) :
    (dropChannel s c).ring q =
      { s.ring q with bound := (s.ring q).bound - if (s.chan c).ring = q then 1 else 0 } := by
  refine (State.setRing_ring s (s.chan c).ring q _).trans ?_
  by_cases hq : q = (s.chan c).ring
  · subst hq
    rw [if_pos rfl, if_pos rfl]
  · rw [if_neg hq, if_neg (Ne.symm hq)]
    rfl

theorem quiesceChannel_ring (s : State) (c : Fin 16) (q : Fin 9) :
    (quiesceChannel s c).ring q =
      { s.ring q with
        bound := (s.ring q).bound - if s.quits c = true ∧ (s.chan c).ring = q then 1 else 0 } := by
  rw [quiesceChannel_eq]
  cases s.quits c with
  | true => simpa using dropChannel_ring s c q
  | false => simp

/-- The channels of a list that leave and are bound to ring `q`. -/
def State.quitters (s : State) (l : List (Fin 16)) (q : Fin 9) : List (Fin 16) :=
  l.filter fun d => s.quits d && decide ((s.chan d).ring = q)

theorem quitters_congr {s t : State} {l : List (Fin 16)}
    (h : ∀ d ∈ l, t.chan d = s.chan d ∧ t.fetchOf d = s.fetchOf d) (q : Fin 9) : t.quitters l q = s.quitters l q :=
  List.filter_congr fun d hd => by rw [quits_congr (h d hd).1 (h d hd).2, (h d hd).1]

theorem quitters_cons_length (s : State) (c : Fin 16) (l : List (Fin 16)) (q : Fin 9) :
    (s.quitters (c :: l) q).length =
      (if s.quits c = true ∧ (s.chan c).ring = q then 1 else 0) + (s.quitters l q).length := by
  unfold State.quitters
  rw [List.filter_cons]
  by_cases h : s.quits c = true ∧ (s.chan c).ring = q
  · simp [h, Nat.add_comm]
  · rw [if_neg h, if_neg (by simpa using h), Nat.zero_add]

/-- The second state is the first after the channels of a list that can leave have left (R46). -/
structure State.QuitOn (s t : State) (l : List (Fin 16)) : Prop where
  chan : ∀ d, t.chan d = if d ∈ l ∧ s.quits d = true then Channel.none else s.chan d
  ring : ∀ q, t.ring q = { s.ring q with bound := (s.ring q).bound - (s.quitters l q).length }

theorem foldl_quiesceChannel_quitOn {l : List (Fin 16)} (hl : l.Nodup) (s : State) :
    s.QuitOn (l.foldl quiesceChannel s) l := by
  induction l generalizing s with
  | nil => exact ⟨fun d => by simp, fun q => rfl⟩
  | cons c l ih =>
    obtain ⟨hc, hl⟩ := List.nodup_cons.mp hl
    obtain ⟨ihchan, ihring⟩ := ih hl (quiesceChannel s c)
    have hsame : ∀ d ∈ l, (quiesceChannel s c).chan d = s.chan d ∧ (quiesceChannel s c).fetchOf d = s.fetchOf d :=
      fun d hd => by
        have hne : d ≠ c := ne_of_mem_of_not_mem hd hc
        exact ⟨by rw [quiesceChannel_chan, if_neg fun e => hne e.1], quiesceChannel_fetchOf s hne⟩
    rw [List.foldl_cons]
    refine ⟨fun d => ?_, fun q => ?_⟩
    · rw [ihchan]
      by_cases hd : d ∈ l
      · rw [quits_congr (hsame d hd).1 (hsame d hd).2, (hsame d hd).1]
        simp only [hd, List.mem_cons, or_true]
      · rw [if_neg fun e => hd e.1, quiesceChannel_chan]
        refine if_congr ?_ rfl rfl
        rw [List.mem_cons, or_iff_left hd]
        exact and_congr_right fun e => by rw [e]
    · rw [ihring, quitters_congr hsame, quiesceChannel_ring, quitters_cons_length, Nat.sub_add_eq]

/-- Every channel that can leave has left: what that changes (R46). -/
structure State.Quit (s t : State) : Prop where
  on : s.QuitOn t allChannels
  frame : t = { s with channels := t.channels, fetch := t.fetch, rings := t.rings }

theorem foldl_quiesceChannel_quit (s : State) : s.Quit (allChannels.foldl quiesceChannel s) := by
  obtain ⟨cs, fs, rs, h⟩ := foldl_quiesceChannel_eq allChannels s
  exact ⟨foldl_quiesceChannel_quitOn (List.nodup_finRange 16) s, by rw [h]⟩

theorem State.Quit.chan {s t : State} (h : s.Quit t) (d : Fin 16) :
    t.chan d = if s.quits d = true then Channel.none else s.chan d := by
  rw [h.on.chan]
  simp only [allChannels, List.mem_finRange, true_and]

theorem State.Quit.unsentVectors {s t : State} (h : s.Quit t) (l : List (Fin 9)) :
    t.unsentVectors l = s.unsentVectors l :=
  unsentVectors_congr fun q _ => by
    rw [h.on.ring]
    exact ⟨rfl, rfl⟩

theorem noChannels_iff {s : State} : noChannels s = true ↔ ∀ d, (s.chan d).state = .absent := by
  simp only [noChannels, List.all_eq_true, allChannels, List.mem_finRange, true_implies, beq_iff_eq]

/-! ### A quiesce that ends (R46, R153) -/

theorem quiesceStep_off {s : State} (h : s.ctl.op ≠ .quiescing) : quiesceStep s = s := if_neg h

theorem State.Quit.noChannels_iff {s t : State} (h : s.Quit t) :
    noChannels t = true ↔ ∀ d, (s.chan d).state = .absent ∨ s.quits d = true := by
  rw [Machine.noChannels_iff]
  refine forall_congr' fun d => ?_
  rw [h.chan]
  cases s.quits d with
  | true => exact iff_of_true rfl (.inr rfl)
  | false => simp

theorem quiesceStep_on {s : State} (h : s.ctl.op = .quiescing) :
    ∃ u, s.Quit u ∧
      quiesceStep s =
        if (∀ d, (s.chan d).state = .absent ∨ s.quits d = true) ∧ s.admin.processor ≠ .executing then endQuiesce u
        else u := by
  have hu := foldl_quiesceChannel_quit s
  unfold quiesceStep
  rw [if_pos h]
  generalize allChannels.foldl quiesceChannel s = u at hu
  have hadmin : u.admin = s.admin := (congrArg State.admin hu.frame :)
  refine ⟨u, hu, if_congr ?_ rfl rfl⟩
  rw [hadmin, hu.noChannels_iff]

/-- What a quiesce that ends leaves: no ring, no admin ring, the vectors sent, and STANDBY (R153). -/
theorem endQuiesce_frame (s : State) :
    endQuiesce s =
      { s with
        rings := Vector.replicate 9 Ring.none, admin := Admin.none, adminFetch := s.adminFetch.orphan
        link := (signalAll s).link, ctl := { s.ctl with op := .standby } } := by
  obtain ⟨q, rs, h⟩ := signalAll_eq s
  rw [endQuiesce, h]
  rfl

/-- Settles O57: `endDeletion` by what its command waits for, `quiesceStep` by whether it ends the quiesce. -/
theorem deletionAndQuiesceEnd : Obligations.DeletionAndQuiesceEnd := by
  intro s c empty goes t done
  have hempty : ∀ d, (s.chan d).isEmpty = true ↔ empty d := fun d => isEmpty_iff
  have hgoes : ∀ d, s.quits d = true ↔ goes d := fun d =>
    decide_eq_true_iff.trans (and_congr_right' (and_congr_right' (and_congr (hempty d) holdsRead_eq_false)))
  have hat := @atWork_iff s
  refine ⟨fun h => ?_, fun p hp hw hop => ⟨fun h => ?_, fun hd he => ?_⟩, quiesceStep_off, fun hop => ?_⟩
  · obtain h | h := h
    · exact endDeletion_of_none (deletingChannel_eq_none h)
    · exact endDeletion_idle fun e => (hat.mp e).elim h.1 h.2
  · refine endDeletion_waits (deletingChannel_eq_some hp hw) fun e => ?_
    exact h.elim (fun hd => hd e.2.1) fun he => he ((hempty c).mp e.2.2)
  · exact endDeletion_ends hp hw (hat.mpr hop) hd ((hempty c).mpr he)
  · obtain ⟨u, hu, hstep⟩ := quiesceStep_on hop
    have hdone : ((∀ d, (s.chan d).state = .absent ∨ s.quits d = true) ∧ s.admin.processor ≠ .executing) ↔ done :=
      and_congr_left' (forall_congr' fun d => or_congr_right (hgoes d))
    have hchan : ∀ d, u.chan d = if goes d then Channel.none else s.chan d := fun d => by
      rw [hu.chan]
      exact if_congr (hgoes d) rfl rfl
    have hring : ∀ q, u.ring q =
        { s.ring q with
          bound :=
            (s.ring q).bound - (allChannels.filter fun d => decide (goes d ∧ (s.chan d).ring = q)).length } := by
      intro q
      have hsame : s.quitters allChannels q = allChannels.filter fun d => decide (goes d ∧ (s.chan d).ring = q) :=
        List.filter_congr fun d _ => by
          rw [Bool.eq_iff_iff, Bool.and_eq_true, decide_eq_true_iff, decide_eq_true_iff, hgoes]
      rw [hu.on.ring, hsame]
    simp only [hdone] at hstep
    have field : ∀ {α : Type} (g : State → α), g u = g _ := fun g => congrArg g hu.frame
    by_cases hd : done
    · rw [if_pos hd, endQuiesce_frame] at hstep
      have after : ∀ {α : Type} (g : State → α), g t = g _ := fun g => congrArg g hstep
      refine ⟨fun d => (after (·.chan d)).trans (hchan d), fun hn => absurd hd hn,
        fun _ => ⟨?_, after State.admin, ?_, fun q => (after (·.ring q)).trans (get_replicate _ q),
          fun hup hme => (after (·.link.outbound)).trans ?_⟩,
        (after State.mem).trans (field State.mem), (after State.partitions).trans (field State.partitions),
        (after State.slots).trans (field State.slots)⟩
      · exact (after State.ctl).trans (congrArg (fun x : Controller => { x with op := .standby }) (field State.ctl))
      · exact (after State.adminFetch).trans (congrArg FetchRecord.orphan (field State.adminFetch))
      · have hlink : u.link = s.link := field State.link
        have hsent := signalAll_link (s := u) (by rw [hlink]; exact hup) (by rw [hlink]; exact hme)
        rw [hlink, hu.unsentVectors, unsentVectors_eq] at hsent
        dsimp only
        rw [hsent]
    · rw [if_neg hd] at hstep
      have after : ∀ {α : Type} (g : State → α), g t = g u := fun g => congrArg g hstep
      exact ⟨fun d => (after (·.chan d)).trans (hchan d),
        fun _ => ⟨(after State.ctl).trans (field State.ctl), (after State.admin).trans (field State.admin),
          (after State.link).trans (field State.link), fun q => (after (·.ring q)).trans (hring q)⟩,
        fun h => absurd h hd, (after State.mem).trans (field State.mem),
        (after State.partitions).trans (field State.partitions), (after State.slots).trans (field State.slots)⟩

end Sys2Proof.Machine
end

section
/-! SUPPORT. The phases of a drain (R157 to R160): what STOP ends, the FLUSH sequence, and what SETTLE leaves. -/

-- One theorem at a time, as in the tests above: fewer threads than the memory limit allows.
set_option Elab.async false

namespace Sys2Proof.Machine

/-! ### Fetched descriptors in STOP (R157) -/

/-- The fetched descriptors that STOP ends: those of a channel with no slot binding (R157). -/
def Channel.stranded (x : Channel) : List Fetched := if x.slot = Option.none then x.queue else []

/-- The channel after fetched descriptors end TERMINATED, oldest first, into its flush queue (R36, R38, R157). -/
def Channel.terminated (c : Fin 16) (x : Channel) (l : List Fetched) : Channel :=
  { x with
    clean := x.clean && decide (l = [])
    completed := x.completed + BitVec.ofNat 32 l.length
    state := if l ≠ [] ∧ x.stopOnError = true ∧ (x.state = .running ∨ x.state = .paused) then .halted else x.state
    flush := x.flush ++ l.map fun f => unstartedCompletion c f .terminated }

theorem foldl_terminated (c : Fin 16) (l : List Fetched) (x : Channel) :
    l.foldl (fun y f => { y.ended .terminated with flush := y.flush ++ [unstartedCompletion c f .terminated] }) x =
      x.terminated c l := by
  have hharm : Status.terminated.harmless = false := rfl
  induction l generalizing x with
  | nil => simp [Channel.terminated]
  | cons f l ih =>
    rw [List.foldl_cons, ih]
    have hcount : x.completed + 1 + BitVec.ofNat 32 l.length = x.completed + BitVec.ofNat 32 (l.length + 1) := by
      rw [BitVec.add_assoc]
      exact congrArg (x.completed + ·) ((BitVec.ofNat_add 1 l.length).symm.trans (by rw [Nat.add_comm]))
    simp only [Channel.terminated, Channel.ended, hharm, Bool.and_false, Bool.false_and, true_and, ne_eq,
      reduceCtorEq, not_false_eq_true, decide_false, List.length_cons, hcount, List.map_cons, List.append_assoc,
      List.singleton_append]
    congr 1
    split_ifs <;> simp_all

/-- The channel in STOP once its stranded descriptors have ended (R157). -/
def Channel.stopped (c : Fin 16) (x : Channel) : Channel :=
  { x.terminated c x.stranded with queue := if x.slot = Option.none then [] else x.queue }

theorem stopped_of_kept {x : Channel} (c : Fin 16) (h : ¬(x.slot = none ∧ x.queue ≠ [])) : x.stopped c = x := by
  have hl : x.stranded = [] := by
    unfold Channel.stranded
    split
    · exact not_not.mp fun hq => h ⟨‹_›, hq⟩
    · rfl
  have hq : (if x.slot = none then [] else x.queue) = x.queue := by
    split
    · exact (not_not.mp fun hq => h ⟨‹_›, hq⟩).symm
    · rfl
  simp [Channel.stopped, Channel.terminated, hl, hq]

theorem terminateQueue_eq {x : Channel} (c : Fin 16) (h : x.slot = none) : x.terminateQueue c = x.stopped c := by
  rw [Channel.terminateQueue, foldl_terminated]
  simp only [Channel.stopped, Channel.stranded, Channel.terminated, h, if_true]

/-- The working record's entry with the stranded descriptors of its channel counted (R157). -/
def ChannelEntry.counting (e : ChannelEntry) (x : Channel) : ChannelEntry :=
  { e with terminated := e.terminated + x.stranded.length }

/-- Channels replaced, and the working record's entries. -/
def State.withStopped (s : State) (cs : Vector Channel 16) (es : Vector ChannelEntry 16) : State :=
  { s with channels := cs, ctl := { s.ctl with working := { s.ctl.working with channels := es } } }

theorem set_get_self {α : Type} {n : Nat} (v : Vector α n) (i : Fin n) : v.set i (v.get i) = v :=
  vector_ext_get fun j => by
    rw [get_set]
    split
    · subst_vars; rfl
    · rfl

theorem terminateFetched_eq (s : State) (c : Fin 16) :
    terminateFetched s c =
      s.withStopped (s.channels.set c ((s.chan c).stopped c))
        (s.ctl.working.channels.set c ((s.ctl.working.channels.get c).counting (s.chan c))) := by
  by_cases h : (s.chan c).slot = none ∧ (s.chan c).queue ≠ []
  · have hl : (s.chan c).queue = (s.chan c).stranded := (if_pos h.1).symm
    have he : ({ s.ctl.working.channels.get c with
          terminated := (s.ctl.working.channels.get c).terminated + (s.chan c).queue.length } : ChannelEntry) =
        (s.ctl.working.channels.get c).counting (s.chan c) := by rw [hl]; rfl
    refine (if_pos h).trans ?_
    rw [terminateQueue_eq c h.1, he]
    rfl
  · have hl : (s.chan c).stranded.length = 0 := by
      unfold Channel.stranded
      split
      · rw [not_not.mp fun hq => h ⟨‹_›, hq⟩]
        rfl
      · rfl
    have he : (s.ctl.working.channels.get c).counting (s.chan c) = s.ctl.working.channels.get c := by
      rw [ChannelEntry.counting, hl]
      rfl
    have hs : s.channels.set c (s.chan c) = s.channels := set_get_self s.channels c
    refine (if_neg h).trans ?_
    rw [stopped_of_kept c h, hs, he, set_get_self]
    rfl

theorem foldl_terminateFetched {l : List (Fin 16)} (hl : l.Nodup) (s : State) :
    l.foldl terminateFetched s =
      s.withStopped (tabulate 16 fun d => if d ∈ l then (s.chan d).stopped d else s.chan d)
        (tabulate 16 fun d =>
          if d ∈ l then (s.ctl.working.channels.get d).counting (s.chan d) else s.ctl.working.channels.get d) := by
  induction l generalizing s with
  | nil =>
    have h1 : tabulate 16 s.chan = s.channels := tabulate_of_get s.channels
    simp only [List.foldl_nil, List.not_mem_nil, if_false, h1, tabulate_of_get]
    rfl
  | cons c l ih =>
    obtain ⟨hc, hl⟩ := List.nodup_cons.mp hl
    rw [List.foldl_cons, ih hl, terminateFetched_eq]
    have hchan : ∀ cs es d, (s.withStopped cs es).chan d = cs.get d := fun _ _ _ => rfl
    have hwork : ∀ cs es, (s.withStopped cs es).ctl.working.channels = es := fun _ _ => rfl
    have htwice : ∀ cs es cs' es', (s.withStopped cs es).withStopped cs' es' = s.withStopped cs' es' :=
      fun _ _ _ _ => rfl
    rw [htwice]
    simp only [hchan, hwork, get_set]
    refine congrArg₂ s.withStopped (tabulate_eq fun d => ?_) (tabulate_eq fun d => ?_)
    all_goals
      by_cases hd : d = c
      · subst hd
        simp [hc]
      · simp only [hd, if_false, List.mem_cons, false_or]
        rfl

/-- STOP with the stranded descriptors of every channel ended (R157). -/
def State.allStopped (s : State) : State :=
  s.withStopped (tabulate 16 fun d => (s.chan d).stopped d)
    (tabulate 16 fun d => (s.ctl.working.channels.get d).counting (s.chan d))

theorem foldl_terminateFetched_all (s : State) : allChannels.foldl terminateFetched s = s.allStopped := by
  refine (foldl_terminateFetched (List.nodup_finRange 16) s).trans ?_
  simp only [State.allStopped, List.mem_finRange, if_true]

/-! ### How STOP ends (R157, R159) -/

theorem slotsIdle_iff {s : State} : s.slotsIdle = true ↔ ∀ k, (s.slot k).state = .idle := by
  simp only [State.slotsIdle, List.all_eq_true, allSlots, List.mem_finRange, true_implies, beq_iff_eq]

theorem queuesEmpty_iff {s : State} : queuesEmpty s = true ↔ ∀ d, (s.chan d).queue = [] := by
  simp only [queuesEmpty, List.all_eq_true, allChannels, List.mem_finRange, true_implies, List.isEmpty_iff]

theorem flushAllowed_iff {s : State} :
    flushAllowed s = true ↔
      (s.ctl.working.reason = .powerWarn ∨ s.ctl.working.reason = .hostRequest) ∧ s.link.up = true := by
  simp only [flushAllowed, Bool.and_eq_true, Bool.or_eq_true, beq_iff_eq]

theorem stopStep_off {s : State} (h : s.ctl.op ≠ .draining ∨ s.ctl.phase ≠ .stop) : stopStep s = s :=
  if_neg fun e => h.elim (fun h => h e.1) fun h => h e.2

theorem flushStep_off {s : State} (h : s.ctl.op ≠ .draining ∨ s.ctl.phase ≠ .flush) : flushStep s = s :=
  if_neg fun e => h.elim (fun h => h e.1) fun h => h e.2.1

theorem stopStep_on {s : State} (ho : s.ctl.op = .draining) (hp : s.ctl.phase = .stop) :
    stopStep s =
      if (∀ k, (s.slot k).state = .idle) ∧ ∀ d, (s.allStopped.chan d).queue = [] then endStop s.allStopped
      else s.allStopped := by
  unfold stopStep
  rw [if_pos ⟨ho, hp⟩]
  simp only [foldl_terminateFetched_all, slotsIdle_iff, queuesEmpty_iff]
  rfl

/-! ### SETTLE (R160) -/

theorem leftover_eq (s : State) :
    leftover s =
      (allChannels.map fun d => ((s.chan d).held ++ (s.chan d).flush).length).sum + s.ctl.adminDone.toList.length := by
  have hleft : ∀ x : Channel, x.left = (x.held ++ x.flush).length := fun x => List.length_append.symm
  unfold leftover
  simp only [hleft]
  cases s.ctl.adminDone <;> rfl

/-- What SETTLE leaves of a state in DRAINING (R160). -/
def State.Settles (u t : State) : Prop :=
  t.ctl.op = .draining ∧ t.ctl.phase = .settle ∧ t.ctl.deadline = none ∧ t.ctl.adminDone = none ∧
    t.ctl.working.unflushed =
      u.ctl.working.unflushed + (allChannels.map fun d => ((u.chan d).held ++ (u.chan d).flush).length).sum +
        u.ctl.adminDone.toList.length ∧
    t.ctl.working.outcome = u.ctl.working.outcome ∧ t.ctl.working.adminTag = u.ctl.working.adminTag ∧
    (∀ d, t.chan d = Channel.none) ∧ (∀ q, t.ring q = Ring.none) ∧ t.admin.processor = .idle ∧
    t.admin.command = none ∧ t.admin.queue = [] ∧ t.adminFetch = u.adminFetch.orphan ∧
    (∀ d, t.fetchOf d = (u.fetchOf d).orphan) ∧ t.port.entryRequest = true ∧
    t.ctl.record = u.ctl.record ∧ t.mem = u.mem ∧ t.partitions = u.partitions ∧
    (u.link.up = true → u.link.messageEnable = true →
      t.link.outbound = u.link.outbound ++ u.unsentVectors allRings) ∧
    ∀ d,
      (t.ctl.working.channels.get d) =
        if (u.ctl.working.channels.get d).existed = true then
          { u.ctl.working.channels.get d with mark := (u.chan d).mark, clean := (u.chan d).clean }
        else u.ctl.working.channels.get d

theorem signalAll_frame (s : State) :
    signalAll s = { s with rings := (signalAll s).rings, link := (signalAll s).link } := by
  obtain ⟨q, rs, h⟩ := signalAll_eq s
  rw [h]

theorem beginSettle_settles {u : State} (ho : u.ctl.op = .draining) : u.Settles (beginSettle u) := by
  have hsent := fun hup hme => signalAll_link (s := u) hup hme
  have hframe := signalAll_frame u
  unfold beginSettle
  generalize signalAll u = v at hsent hframe
  have hchan : v.channels = u.channels := (congrArg State.channels hframe :)
  have hfetch : v.fetch = u.fetch := (congrArg State.fetch hframe :)
  have hctl : v.ctl = u.ctl := (congrArg State.ctl hframe :)
  have hleft : leftover v = leftover u := by simp only [leftover, State.chan, hchan, hctl]
  refine ⟨(congrArg Controller.op hctl).trans ho, rfl, rfl, rfl, ?_, ?_, ?_, fun d => get_replicate _ d,
    fun q => get_replicate _ q, rfl, rfl, rfl, ?_, fun d => ?_, rfl, ?_, ?_, ?_, fun hup hme => ?_, fun d => ?_⟩
  · rw [Nat.add_assoc, ← leftover_eq, ← hleft, ← hctl]
  · rw [← hctl]
  · rw [← hctl]
  · exact congrArg FetchRecord.orphan (congrArg State.adminFetch hframe :)
  · refine (tabulate_get _ d).trans ?_
    simp only [State.fetchOf, hfetch]
  · show v.ctl.record = u.ctl.record
    rw [hctl]
  · exact (congrArg State.mem hframe :)
  · exact (congrArg State.partitions hframe :)
  · exact congrArg Link.outbound (hsent hup hme)
  · refine (tabulate_get _ d).trans ?_
    simp only [State.chan, hchan, hctl, entryAtSettle]

/-- The working record with a flush outcome (R158). -/
def State.withOutcome (s : State) (o : FlushOutcome) : State :=
  { s with ctl := { s.ctl with working := { s.ctl.working with outcome := o } } }

theorem endFlush_settles {s : State} (ho : s.ctl.op = .draining) (o : FlushOutcome) :
    (s.withOutcome o).Settles (endFlush s o) := beginSettle_settles (u := s.withOutcome o) ho

/-! ### The FLUSH sequence (R158) -/

/-- The completions a channel still holds, in the order of the FLUSH sequence. -/
def State.leftIn (s : State) (d : Fin 16) : List Completion := (s.chan d).held ++ (s.chan d).flush

theorem left_ne_zero_iff (s : State) (d : Fin 16) : ((s.chan d).left != 0) = true ↔ s.leftIn d ≠ [] := by
  have h : (s.chan d).left = (s.leftIn d).length := List.length_append.symm
  rw [bne_iff_ne, h, ne_eq, List.length_eq_zero_iff]

/-- With nothing left in channels, the drain's admin completion stands alone in the sequence (R158). -/
theorem flushNext_admin {s : State} (h : ∀ d, s.leftIn d = []) :
    flushNext s = s.ctl.adminDone.map fun f => (.admin, f, 0) := by
  have hnone : (allChannels.find? fun c => (s.chan c).left != 0) = none :=
    List.find?_eq_none.mpr fun d _ e => (left_ne_zero_iff s d).mp e (h d)
  simp only [flushNext, hnone]

/-- The channel with the lowest id that holds completions stands first in the sequence (R158). -/
theorem flushNext_channel {s : State} {c : Fin 16} {f : Completion} (hf : (s.leftIn c).head? = some f)
    (hlow : ∀ d, d < c → s.leftIn d = []) : flushNext s = some (.channel c, f, (s.chan c).ring) := by
  obtain ⟨rest, hl⟩ := List.head?_eq_some_iff.mp hf
  have hfind : (allChannels.find? fun c => (s.chan c).left != 0) = some c := by
    rw [allChannels, List.find?_eq_some_iff_getElem]
    refine ⟨(left_ne_zero_iff s c).mpr (by rw [hl]; simp), c.val, by simp, by simp, fun j hj => ?_⟩
    have hj' := hlow ⟨j, hj.trans c.isLt⟩ hj
    simpa using mt (left_ne_zero_iff s ⟨j, hj.trans c.isLt⟩).mp (not_not.mpr hj')
  unfold State.leftIn at hl
  simp only [flushNext, hfind, hl]

theorem flushNext_ne_none {s : State} (h : (∃ d, s.leftIn d ≠ []) ∨ s.ctl.adminDone ≠ none) : flushNext s ≠ none := by
  by_cases hall : ∀ d, s.leftIn d = []
  · rw [flushNext_admin hall]
    obtain ⟨d, hd⟩ | ha := h
    · exact absurd (hall d) hd
    · simpa using ha
  · have hsome : ∃ d, s.leftIn d ≠ [] := by simpa using hall
    obtain ⟨c, hc, hlow⟩ : ∃ c, s.leftIn c ≠ [] ∧ ∀ d, d < c → s.leftIn d = [] := by
      obtain ⟨c, hc⟩ := exists_minimal_of_wellFoundedLT (fun d => s.leftIn d ≠ []) hsome
      exact ⟨c, hc.prop, fun d hd => not_not.mp fun e => hc.not_prop_of_lt hd e⟩
    cases hl : s.leftIn c with
    | nil => exact absurd hl hc
    | cons f rest =>
      rw [flushNext_channel (f := f) (by rw [hl]; rfl) hlow]
      simp

theorem popped_eq (x : Channel) :
    x.popped = { x with held := x.held.drop 1, flush := if x.held = [] then x.flush.drop 1 else x.flush } := by
  cases h : x.held with
  | nil => simp [Channel.popped, h]
  | cons f rest => simp [Channel.popped, h]

theorem exec_completionWrite_inFlush {s : State} {r : Fin 9} (hcore : s.power.core = true)
    (hroom : (s.ring r).hasRoom = true) (ho : s.ctl.op = .draining) (hp : s.ctl.phase = .flush) :
    exec (.completionWrite r) s = .next (writeInFlush s r) := by
  have hwork : ¬s.atWork = true := by simp [State.atWork, ho]
  rw [exec_completionWrite hcore hroom, if_neg hwork, if_pos ⟨ho, hp⟩]

theorem exec_completionDiscard_inFlush {s : State} (src : CompletionSource) (hcore : s.power.core = true)
    (ho : s.ctl.op = .draining) (hp : s.ctl.phase = .flush) :
    exec (.completionDiscard src) s = .next (discardInFlush s src) := by
  have hwork : ¬s.atWork = true := by simp [State.atWork, ho]
  rw [exec_completionDiscard src hcore, if_neg hwork, if_pos ⟨ho, hp⟩]

theorem exec_drainDeadlineExpiry {s : State} {remaining : Nat} (hcore : s.power.core = true)
    (ho : s.ctl.op = .draining) (hd : s.ctl.deadline = some remaining) :
    exec .drainDeadlineExpiry s = .next (conclude (deadlineExpired (s.elapse remaining))) := by
  have hno : ¬(s.power.core = false ∨ s.ctl.op ≠ .draining) := by simp [hcore, ho]
  show execDrainDeadlineExpiry s = _
  simp only [execDrainDeadlineExpiry, if_neg hno, hd]

/-- A completion of the FLUSH sequence written from a channel (R158). -/
theorem writeInFlush_channel {s : State} {c : Fin 16} {f : Completion}
    (h : flushNext s = some (.channel c, f, (s.chan c).ring)) :
    writeInFlush s (s.chan c).ring = conclude (writeFromChannel s (s.chan c).ring c f) := by
  simp only [writeInFlush, h, if_true]

/-- The drain's admin completion written (R158). -/
theorem writeInFlush_admin {s : State} {f : Completion} (h : flushNext s = some (.admin, f, 0)) :
    writeInFlush s 0 = conclude (writeDrainAdmin s f) := by
  simp only [writeInFlush, h, if_true]

theorem discardInFlush_channel {s : State} {c : Fin 16} {f : Completion}
    (h : flushNext s = some (.channel c, f, (s.chan c).ring)) (hr : (s.ring (s.chan c).ring).state = .faulted) :
    discardInFlush s (.channel c) = conclude (countUnflushed (s.setChan c (s.chan c).popped)) := by
  simp only [discardInFlush, h, hr, and_self, if_true]

theorem discardInFlush_admin {s : State} {f : Completion} (h : flushNext s = some (.admin, f, 0))
    (hr : (s.ring 0).state = .faulted) :
    discardInFlush s .admin = conclude (countUnflushed { s with ctl := { s.ctl with adminDone := none } }) := by
  simp only [discardInFlush, h, hr, and_self, if_true]

/-! ### The obligation -/

/-- Settles O60: STOP by what its passage leaves of every channel, FLUSH by what stands first in its sequence, and SETTLE
by `beginSettle_settles`. -/
theorem drainPhases : Obligations.DrainPhases := by
  refine ⟨fun s => ⟨rfl, stopStep_off, flushStep_off⟩, ?_⟩
  intro s c r hcore he hop y left first settled outcome flushes ends u ready popped unflushed
  have hu : s.allStopped = u := rfl
  refine ⟨fun hp => ?_, fun hp => ⟨fun hl ha => ?_, fun h => ?_, endFlush_settles hop .deadline, fun ha hroom =>
    ⟨fun f hf hfirst hr => ?_, fun hl hr f hf => ?_⟩, fun hfault f hf hfirst => ?_, fun hfault hl ha => ?_⟩,
    fun remaining hd => ?_⟩
  · have hstep := stopStep_on hop hp
    rw [hu] at hstep
    rw [hstep]
    have hallow : flushAllowed u = true ↔ flushes := flushAllowed_iff
    refine ⟨fun hn => if_neg hn, fun hr hf hx => ?_, fun hr hf hx => ?_, fun hr hf => ?_⟩
    · have hx' : ¬u.ctl.expired = true := by
        show ¬s.ctl.expired = true
        simp [hx]
      refine (if_pos hr).trans ?_
      rw [endStop, if_pos (hallow.mpr hf), if_neg hx']
    · have hend : endStop u = endFlush u .deadline := (if_pos (hallow.mpr hf)).trans (if_pos hx)
      have hstop := (if_pos hr : (if ready then endStop u else u) = endStop u).trans hend
      exact hstop ▸ endFlush_settles (s := u) hop .deadline
    · have hend : endStop u = beginSettle u := if_neg (mt hallow.mp hf)
      have hstop := (if_pos hr : (if ready then endStop u else u) = endStop u).trans hend
      exact hstop ▸ beginSettle_settles (u := u) hop
  · have hnone : flushNext s = none := by
      rw [flushNext_admin hl, ha]
      rfl
    have hend : flushStep s = endFlush s .complete := if_pos ⟨hop, hp, hnone⟩
    rw [hend]
    exact endFlush_settles hop .complete
  · exact if_neg fun e => flushNext_ne_none h e.2.2
  · subst hr
    have hexec := exec_completionWrite_inFlush hcore (hasRoom_iff.mpr ⟨ha, hroom⟩) hop hp
    rw [writeInFlush_channel (flushNext_channel hf hfirst.2), writeFromChannel, popped_eq] at hexec
    exact concludes_of_next hexec (writeEntry_entryLaw (s := (s.setChan _ _).setRing _ _) he _ f)
  · subst hr
    have hexec := exec_completionWrite_inFlush hcore (hasRoom_iff.mpr ⟨ha, hroom⟩) hop hp
    rw [writeInFlush_admin (f := f) (by rw [flushNext_admin hl, Option.mem_def.mp hf]; simp)] at hexec
    have hlaw : (writeDrainAdmin s f).EntryLaw :=
      writeEntry_entryLaw
        (s :=
          { s with
            admin := s.admin.posted
            ctl := { s.ctl with adminDone := none, working := { s.ctl.working with adminTag := none } } })
        (fun _ => hop) 0 f
    exact concludes_of_next hexec hlaw
  · have hexec := exec_completionDiscard_inFlush (.channel c) hcore hop hp
    rw [discardInFlush_channel (flushNext_channel hf hfirst.2) hfault, popped_eq] at hexec
    exact concludes_of_next hexec he
  · obtain ⟨f, hf⟩ := Option.ne_none_iff_exists'.mp ha
    have hexec := exec_completionDiscard_inFlush .admin hcore hop hp
    rw [discardInFlush_admin (f := f) (by rw [flushNext_admin hl, hf]; simp) hfault] at hexec
    exact concludes_of_next hexec he
  · intro v
    have hexec := exec_drainDeadlineExpiry hcore hop hd
    refine ⟨fun hp => ?_, fun hp => ?_⟩
    · rw [deadlineExpired, if_pos (show (s.elapse remaining).ctl.phase = .flush from hp)] at hexec
      exact concludes_of_next hexec fun _ => (endFlush_settles (s := v) hop .deadline).1
    · rw [deadlineExpired, if_neg (show ¬(s.elapse remaining).ctl.phase = .flush from hp)] at hexec
      exact concludes_of_next hexec he

end Sys2Proof.Machine
end

section
/-! SUPPORT. How a host read ends: what reaches its holder, what an orphaned read changes, and the tag afterwards (R29 to
R31, R57, R65, R132, R133, R170, R171). -/

-- One theorem at a time, as in the tests above: fewer threads than the memory limit allows.
set_option Elab.async false

namespace Sys2Proof.Machine

/-! ### Data in pieces and records -/

/-- A piece joins those in hand after every piece that does not lie beyond it (R58). -/
theorem insertPiece_eq (p : Piece) (l : List Piece) :
    insertPiece p l =
      l.takeWhile (fun q => decide (q.pos ≤ p.pos)) ++ p :: l.dropWhile fun q => decide (q.pos ≤ p.pos) := by
  induction l with
  | nil => rfl
  | cons q r ih =>
    by_cases h : p.pos < q.pos
    · have hd : decide (q.pos ≤ p.pos) = false := by simpa using h
      simp [insertPiece, h, hd]
    · have hd : decide (q.pos ≤ p.pos) = true := by simpa using h
      simp [insertPiece, h, hd, ih]

theorem splitRecords_eq (n : Nat) (bytes : List Byte) :
    splitRecords n bytes = (List.range n).map fun j => BitVec.ofNat 512 (leValue ((bytes.drop (64 * j)).take 64)) := by
  induction n generalizing bytes with
  | zero => rfl
  | succ n ih =>
    rw [List.range_succ_eq_map, List.map_cons, List.map_map]
    simp only [splitRecords, ih, List.drop_drop]
    refine congrArg₂ _ rfl (List.map_congr_left fun j _ => ?_)
    simp only [Function.comp_apply, Nat.mul_succ, Nat.add_comm]

/-! ### A read whose end is not taken (R31, R65, R68, R71, R132, R133) -/

/-- The end of an orphaned read, and in a drain of any read of a ring, leaves no trace but an empty fetch record. -/
def State.Dropped (u : State) (x : Tag) (v : State) : Prop :=
  (∀ k, x.holder = .slot k ∧ (x.orphan = true ∨ (u.slot k).state ≠ .run) → v = u) ∧
    (∀ c n, x.holder = .channel c →
      u.fetchOf c = .orphaned n ∨ (u.fetchOf c = .inFlight n ∧ ¬u.atWork = true) → v = u.setFetch c .empty) ∧
    ∀ n, x.holder = .admin → u.adminFetch = .orphaned n ∨ (u.adminFetch = .inFlight n ∧ ¬u.atWork = true) →
      v = { u with adminFetch := .empty }

theorem readDone_dropped (u : State) (x : Tag) (bytes : List Byte) : u.Dropped x (readDone u x bytes) := by
  refine ⟨fun k ⟨hx, hg⟩ => ?_, fun c n hx hf => ?_, fun n hx hf => ?_⟩
  · simp only [readDone, hx, slotReadDone]
    obtain ho | hs := hg
    · exact if_pos ho
    · exact ite_eq_left_iff.mpr fun _ => if_neg hs
  · simp only [readDone, hx, channelFetchDone]
    obtain ho | ⟨hi, hw⟩ := hf
    · rw [ho]
    · simp only [hi, if_neg hw]
  · simp only [readDone, hx, adminFetchDone]
    obtain ho | ⟨hi, hw⟩ := hf
    · rw [ho]
    · simp only [hi, if_neg hw]

theorem readFailed_dropped (u : State) (x : Tag) : u.Dropped x (readFailed u x) := by
  refine ⟨fun k ⟨hx, hg⟩ => ?_, fun c n hx hf => ?_, fun n hx hf => ?_⟩
  · simp only [readFailed, hx, slotReadFailed]
    obtain ho | hs := hg
    · exact if_pos ho
    · exact ite_eq_left_iff.mpr fun _ => if_neg hs
  · simp only [readFailed, hx, channelFetchFailed]
    obtain ho | ⟨hi, hw⟩ := hf
    · rw [ho]
    · simp only [hi, if_neg hw]
  · simp only [readFailed, hx, adminFetchFailed]
    obtain ho | ⟨hi, hw⟩ := hf
    · rw [ho]
    · simp only [hi, if_neg hw]

/-! ### A read that reaches its holder -/

theorem readDone_slot {u : State} {x : Tag} {k : Fin 4} (hx : x.holder = .slot k) (ho : x.orphan = false)
    (hs : (u.slot k).state = .run) (bytes : List Byte) :
    readDone u x bytes =
      advanceSlot
        (u.setSlot k
          { u.slot k with
            reads := (u.slot k).reads - 1
            inHand := insertPiece { pos := x.pos, data := bytes } (u.slot k).inHand }) k := by
  simp only [readDone, hx, ho, slotReadDone, hs, if_true, Bool.false_eq_true, if_false]

theorem readDone_channel {u : State} {x : Tag} {c : Fin 16} {n : Nat} (hx : x.holder = .channel c)
    (hf : u.fetchOf c = .inFlight n) (hw : u.atWork = true) (bytes : List Byte) :
    readDone u x bytes =
      (u.setChan c
        { u.chan c with
          head := ((u.chan c).head + n) % (u.chan c).size
          queue :=
            (u.chan c).queue ++
              (splitRecords n bytes).map fun r =>
                { entry := r, headAfter := ((u.chan c).head + n) % (u.chan c).size } }).setFetch c .empty := by
  simp only [readDone, hx, channelFetchDone, hf, hw, if_true]

theorem readDone_admin {u : State} {x : Tag} {n : Nat} (hx : x.holder = .admin) (hf : u.adminFetch = .inFlight n)
    (hw : u.atWork = true) (bytes : List Byte) :
    readDone u x bytes =
      { u with
        adminFetch := .empty
        admin :=
          { u.admin with
            head := (u.admin.head + n) % u.admin.size
            queue :=
              u.admin.queue ++
                (splitRecords n bytes).map fun r =>
                  { entry := r, headAfter := (u.admin.head + n) % u.admin.size } } } := by
  simp only [readDone, hx, adminFetchDone, hf, hw, if_true]

/-- The state with the waiting reads of a slot orphaned (R71), each tag given by one equation. -/
def State.readsOrphaned (s : State) (k : Fin 4) : State :=
  { s with
    link :=
      { s.link with
        tags := tabulate 16 fun f =>
          { s.tag f with
            orphan := (s.tag f).orphan || ((s.tag f).state == .waiting && (s.tag f).holder == .slot k) } } }

theorem orphanReads_eq (s : State) (k : Fin 4) : orphanReads s k = s.readsOrphaned k := by
  unfold orphanReads State.readsOrphaned
  refine congrArg (fun ts => { s with link := { s.link with tags := ts } }) (tabulate_eq fun f => ?_)
  by_cases h : (s.tag f).state = .waiting ∧ (s.tag f).holder = .slot k
  · simp [h]
  · have hb : ((s.tag f).state == .waiting && (s.tag f).holder == .slot k) = false := by simpa using h
    simp only [if_neg h, hb, Bool.or_false]

theorem advanceSlot_ending {s : State} {k : Fin 4} (h : (s.slot k).state = .ending) :
    advanceSlot s k = finishSlot s k := by
  simp only [advanceSlot, h]

theorem setSlot_slot (s : State) (k : Fin 4) (y : Slot) : (s.setSlot k y).slot k = y :=
  (get_set _ _ _ _).trans (if_pos rfl)

/-- A slot that loses a read of its WRITE_IN enters ENDING with the pieces that follow what is delivered (R65). -/
theorem readFailed_slot {u : State} {x : Tag} {k : Fin 4} (hx : x.holder = .slot k) (ho : x.orphan = false)
    (hs : (u.slot k).state = .run) (hk : descKind (u.slot k).entry = some .writeIn) :
    readFailed u x =
      advanceSlot
        ((u.readsOrphaned k).setSlot k
          { u.slot k with
            state := .ending, cause := .status .hostReadError, reads := 0
            inHand := contiguous (u.slot k).bytesDone (u.slot k).inHand }) k := by
  rw [advanceSlot_ending (by rw [setSlot_slot]), ← orphanReads_eq]
  simp only [readFailed, hx, ho, slotReadFailed, hs, if_true, Bool.false_eq_true, if_false, leaveRun, trimDeliveries,
    hk]

theorem readFailed_channel {u : State} {x : Tag} {c : Fin 16} {n : Nat} (hx : x.holder = .channel c)
    (hf : u.fetchOf c = .inFlight n) (hw : u.atWork = true) :
    readFailed u x =
      ((u.setChan c
          (if (u.chan c).state = .running ∨ (u.chan c).state = .paused then { u.chan c with state := .halted }
          else u.chan c)).setFetch c .empty).raise .fetchError := by
  simp only [readFailed, hx, channelFetchFailed, hf, hw, if_true]

theorem readFailed_admin {u : State} {x : Tag} {n : Nat} (hx : x.holder = .admin) (hf : u.adminFetch = .inFlight n)
    (hw : u.atWork = true) :
    readFailed u x = { u with adminFetch := .empty, admin := u.admin.failed }.raise .adminFault := by
  simp only [readFailed, hx, adminFetchFailed, hf, hw, if_true]

theorem readDone_entryLaw {u : State} (h : u.EntryLaw) (x : Tag) (bytes : List Byte) :
    (readDone u x bytes).EntryLaw := by
  obtain ⟨_, _, _, _, _, _, _, e⟩ := readDone_eq u x bytes
  rw [e]
  exact h

theorem readFailed_entryLaw {u : State} (h : u.EntryLaw) (x : Tag) : (readFailed u x).EntryLaw := by
  obtain ⟨_, _, _, _, _, _, _, _, _, _, e⟩ := readFailed_eq u x
  rw [e]
  exact h

/-! ### The tag afterwards (R169, R171) -/

theorem elapse_tag (s : State) (n : Nat) (g : Fin 16) :
    (s.elapse n).tag g = { s.tag g with left := (s.tag g).left - n } := tabulate_get _ g

/-- Grants leave a tag in its state, or take it from FREE to WAITING. -/
theorem grantTags_tagState (n : Nat) (s : State) (g : Fin 16) :
    ((grantTags n s).tag g).state = (s.tag g).state ∨
      ((s.tag g).state = .free ∧ ((grantTags n s).tag g).state = .waiting) := by
  induction n generalizing s with
  | zero => exact .inl rfl
  | succ n ih =>
    obtain hs | ⟨t, h, hu, ht, hh⟩ := noGrant_or s
    · rw [grantTags_of_noGrant hs]
      exact .inl rfl
    · rw [grantTags_succ hu ht hh]
      have hstep := grantTo_tag s t h (grantHolder_ne_none hh) g
      have hih := ih (grantTo s t h)
      rw [hstep] at hih
      by_cases hg : g = t
      · subst hg
        rw [if_pos rfl] at hih
        exact .inr ⟨freeTag_free ht, hih.elim id And.right⟩
      · rwa [if_neg hg] at hih

theorem settleLink_tagState (s : State) (g : Fin 16) :
    ((settleLink s).tag g).state = (s.tag g).state ∨
      ((s.tag g).state = .free ∧ ((settleLink s).tag g).state = .waiting) :=
  grantTags_tagState 16 (refreshRequests s) g

/-! ### The commands -/

theorem not_unreached {s : State} {P : Prop} (hcore : s.power.core = true) (hup : s.link.up = true) (hp : ¬P) :
    ¬(s.reached = false ∨ P) := by
  simp [State.reached, hcore, hup, hp]

theorem exec_hostReadData_partial {s : State} {g : Fin 16} {bytes : List Byte} (hcore : s.power.core = true)
    (hup : s.link.up = true) (hw : (s.tag g).state = .waiting)
    (hl : ((s.tag g).data ++ bytes).length < (s.tag g).len) :
    exec (.hostReadData g bytes) s = .next (s.setTag g { s.tag g with data := (s.tag g).data ++ bytes }) :=
  congrArg Host.Outcome.next ((if_neg (not_unreached hcore hup (not_not.mpr hw))).trans (if_pos hl))

theorem exec_hostReadData_complete {s : State} {g : Fin 16} {bytes : List Byte} (hcore : s.power.core = true)
    (hup : s.link.up = true) (hw : (s.tag g).state = .waiting)
    (hl : (s.tag g).len ≤ ((s.tag g).data ++ bytes).length) :
    exec (.hostReadData g bytes) s =
      .next
        (conclude
          (readDone (s.setTag g Tag.none) (s.tag g) (((s.tag g).data ++ bytes).take (s.tag g).len))) :=
  congrArg Host.Outcome.next
    ((if_neg (not_unreached hcore hup (not_not.mpr hw))).trans (if_neg (Nat.not_lt.mpr hl)))

theorem exec_readErrorReturn {s : State} {g : Fin 16} (hcore : s.power.core = true) (hup : s.link.up = true)
    (hw : (s.tag g).state = .waiting) :
    exec (.readErrorReturn g) s = .next (conclude (readFailed (s.setTag g Tag.none) (s.tag g))) :=
  congrArg Host.Outcome.next (if_neg (not_unreached hcore hup (not_not.mpr hw)))

/-- A tag QUARANTINED by the timeout of its read (R171). -/
def Tag.timedOut (x : Tag) : Tag := { x with state := .quarantined, data := [], left := x.timeoutMs * 10000 }

theorem exec_linkReadTimeout {s : State} {g : Fin 16} (hcore : s.power.core = true) (hw : (s.tag g).state = .waiting) :
    exec (.linkReadTimeout g) s =
      .next (conclude (readFailed ((s.elapse (s.tag g).left).setTag g (s.tag g).timedOut) (s.tag g))) := by
  have hno : ¬(s.power.core = false ∨ (s.tag g).state ≠ .waiting) := by simp [hcore, hw]
  have hexec : exec (.linkReadTimeout g) s = .next (readTimesOut (s.elapse (s.tag g).left) g) :=
    congrArg Host.Outcome.next (if_neg hno)
  have hleft : ∀ (u : State) (x : Tag) (n : Nat), readFailed u { x with left := n } = readFailed u x :=
    fun _ _ _ => rfl
  rw [hexec, readTimesOut, elapse_tag, hleft]
  rfl

theorem exec_quarantineEnd {s : State} {g : Fin 16} (hcore : s.power.core = true)
    (hq : (s.tag g).state = .quarantined) :
    exec (.quarantineEnd g) s = .next (settleLink ((s.elapse (s.tag g).left).setTag g Tag.none)) :=
  congrArg Host.Outcome.next (if_neg (by simp [hcore, hq]))

/-! ### The obligation -/

/-- A read that is not taken concludes on the state that `State.Dropped` gives. -/
theorem State.Dropped.concludes {i : Instr} {s u v : State} {x : Tag} (h : u.Dropped x v) (hc : Concludes i s v) :
    (∀ k, x.holder = .slot k ∧ (x.orphan = true ∨ (u.slot k).state ≠ .run) → Concludes i s u) ∧
      (∀ c n, x.holder = .channel c →
        u.fetchOf c = .orphaned n ∨ (u.fetchOf c = .inFlight n ∧ ¬(u.ctl.op = .active ∨ u.ctl.op = .quiescing)) →
          Concludes i s (u.setFetch c .empty)) ∧
      ∀ n, x.holder = .admin →
        u.adminFetch = .orphaned n ∨ (u.adminFetch = .inFlight n ∧ ¬(u.ctl.op = .active ∨ u.ctl.op = .quiescing)) →
          Concludes i s { u with adminFetch := .empty } := by
  obtain ⟨hslot, hchan, hadmin⟩ := h
  exact ⟨fun k hk => hslot k hk ▸ hc, fun c n hx hf => hchan c n hx (by rwa [atWork_iff]) ▸ hc,
    fun n hx hf => hadmin n hx (by rwa [atWork_iff]) ▸ hc⟩

/-- What a failed read concludes on (R30, R31, R65, R71, R132, R133): where it is not taken, and at each holder. -/
theorem readFailed_concludes {i : Instr} {s u : State} {x : Tag} (he : u.EntryLaw)
    (hexec : exec i s = .next (conclude (readFailed u x))) :
    ((∀ k, x.holder = .slot k ∧ (x.orphan = true ∨ (u.slot k).state ≠ .run) → Concludes i s u) ∧
      (∀ c n, x.holder = .channel c →
        u.fetchOf c = .orphaned n ∨ (u.fetchOf c = .inFlight n ∧ ¬(u.ctl.op = .active ∨ u.ctl.op = .quiescing)) →
          Concludes i s (u.setFetch c .empty)) ∧
      ∀ n, x.holder = .admin →
        u.adminFetch = .orphaned n ∨ (u.adminFetch = .inFlight n ∧ ¬(u.ctl.op = .active ∨ u.ctl.op = .quiescing)) →
          Concludes i s { u with adminFetch := .empty }) ∧
      (∀ k, x.holder = .slot k ∧ x.orphan = false ∧ (u.slot k).state = .run →
        descKind (u.slot k).entry = some .writeIn →
          Concludes i s
            (advanceSlot
              ((u.readsOrphaned k).setSlot k
                { u.slot k with
                  state := .ending, cause := .status .hostReadError, reads := 0
                  inHand := contiguous (u.slot k).bytesDone (u.slot k).inHand })
              k)) ∧
      (∀ c n, x.holder = .channel c → u.fetchOf c = .inFlight n → u.ctl.op = .active ∨ u.ctl.op = .quiescing →
        Concludes i s
          (((u.setChan c
              (if (u.chan c).state = .running ∨ (u.chan c).state = .paused then { u.chan c with state := .halted }
              else u.chan c)).setFetch c .empty).raise .fetchError)) ∧
      ∀ n, x.holder = .admin → u.adminFetch = .inFlight n → u.ctl.op = .active ∨ u.ctl.op = .quiescing →
        Concludes i s ({ u with adminFetch := .empty, admin := u.admin.failed }.raise .adminFault) := by
  have hc := concludes_of_next hexec (readFailed_entryLaw he x)
  exact ⟨(readFailed_dropped u x).concludes hc, fun k ⟨hx, ho, hs⟩ hk => readFailed_slot hx ho hs hk ▸ hc,
    fun c n hx hf hw => readFailed_channel hx hf (atWork_iff.mpr hw) ▸ hc,
    fun n hx hf hw => readFailed_admin hx hf (atWork_iff.mpr hw) ▸ hc⟩

/-- Settles O58: the end of a read reaches its holder by the equations above, and `State.Dropped` where it is not taken. -/
theorem hostReadsEnd : Obligations.HostReadsEnd := by
  intro s g bytes hcore he x all data freed working taken lives gone dropped fails
  have htaken : ∀ n head,
      ((splitRecords n data).map fun r => ({ entry := r, headAfter := head } : Fetched)) = taken n head := by
    intro n head
    rw [splitRecords_eq, List.map_map]
    rfl
  refine ⟨fun hw hup => ⟨exec_hostReadData_partial hcore hup hw, fun hl => ?_,
    readFailed_concludes (u := freed) he (exec_readErrorReturn hcore hup hw)⟩, fun hw =>
    readFailed_concludes (u := (s.elapse x.left).setTag g x.timedOut) he (exec_linkReadTimeout hcore hw), fun hq => ?_⟩
  · have hexec := exec_hostReadData_complete (bytes := bytes) hcore hup hw hl
    have hc := concludes_of_next hexec (readDone_entryLaw (u := freed) he x data)
    refine ⟨(readDone_dropped freed x data).concludes hc, fun k ⟨hx, ho, hs⟩ => ?_, fun c n hx hf hwork => ?_,
      fun n hx hf hwork => ?_⟩
    · have hdone := readDone_slot (u := freed) hx ho hs data
      rw [insertPiece_eq] at hdone
      rw [hdone] at hc
      exact hc
    · intro y head
      have hdone := readDone_channel (u := freed) hx hf (atWork_iff.mpr hwork) data
      rw [htaken] at hdone
      exact hdone ▸ hc
    · intro head
      have hdone := readDone_admin (u := freed) hx hf (atWork_iff.mpr hwork) data
      rw [htaken] at hdone
      exact hdone ▸ hc
  · intro u
    refine ⟨_, exec_quarantineEnd hcore hq, rfl, ?_, besideTags_settleLink u⟩
    have hfree : (u.tag g).state = .free := by
      rw [State.setTag_tag, if_pos rfl]
      rfl
    obtain h | ⟨_, h⟩ := settleLink_tagState u g <;> rw [h]
    · rw [hfree]
      exact TagState.noConfusion
    · exact TagState.noConfusion

end Sys2Proof.Machine
end

section
/-! SUPPORT. Durable marks (R37): which operations leave every channel's mark, and the passages, which leave a channel's
mark or make the channel ABSENT. -/

-- One theorem at a time, as in the tests above: fewer threads than the memory limit allows.
set_option Elab.async false

namespace Sys2Proof.Machine

/-- Every channel's durable mark is as in `s`. -/
def State.SameMarks (s t : State) : Prop := ∀ c, (t.chan c).mark = (s.chan c).mark

namespace State.SameMarks

theorem refl (s : State) : s.SameMarks s := fun _ => rfl

theorem trans {s t u : State} (h : s.SameMarks t) (h' : t.SameMarks u) : s.SameMarks u :=
  fun c => (h' c).trans (h c)

theorem of_channels {s t : State} (h : t.channels = s.channels) : s.SameMarks t :=
  fun c => congrArg (fun v => (Vector.get v c).mark) h

/-- An update that leaves the channels, before one that leaves their marks. -/
theorem after {s t u : State} (h : t.SameMarks u) (hc : t.channels = s.channels := by rfl) : s.SameMarks u :=
  (of_channels hc).trans h

/-- One channel replaced by one with its mark. -/
theorem of_set {s t : State} {c : Fin 16} {x : Channel} (ht : t.channels = s.channels.set c x)
    (hx : x.mark = (s.chan c).mark) : s.SameMarks t := fun d => by
  have h : t.chan d = if d = c then x else s.chan d := (congrArg (fun v => Vector.get v d) ht).trans (get_set _ _ _ _)
  rw [h]
  split
  · subst_vars; exact hx
  · rfl

theorem foldl {α : Type} {f : State → α → State} (hf : ∀ (s : State) (a : α), s.SameMarks (f s a)) (l : List α)
    (s : State) : s.SameMarks (l.foldl f s) := by
  induction l generalizing s with
  | nil => exact .refl s
  | cons a l ih => exact (hf s a).trans (ih _)

end State.SameMarks

theorem sameMarks_setChan {s : State} {c : Fin 16} {x : Channel} (h : x.mark = (s.chan c).mark) :
    s.SameMarks (s.setChan c x) := .of_set rfl h

theorem sameMarks_setSlot (s : State) (k : Fin 4) (x : Slot) : s.SameMarks (s.setSlot k x) := .of_channels rfl

theorem sameMarks_raise (s : State) (c : Cause) : s.SameMarks (s.raise c) := fun d =>
  congrArg Channel.mark (raise_chan s c d)

theorem sameMarks_handOverAdmin (s : State) (st : Status) (v : Word32) : s.SameMarks (s.handOverAdmin st v) := by
  obtain ⟨a, h⟩ := handOverAdmin_eq s st v
  exact .of_channels (by rw [h])

/-! ### Slots -/

theorem sameMarks_endSlot (s : State) (k : Fin 4) (st : Status) : s.SameMarks (endSlot s k st) := fun d => by
  rw [endSlot_chan]
  split
  · rename_i h
    rw [h.2]
    rfl
  · rfl

theorem sameMarks_runSlot (s : State) (k : Fin 4) : s.SameMarks (runSlot s k) := by
  unfold runSlot
  simp only
  split
  · exact (sameMarks_setSlot _ _ _).trans (sameMarks_endSlot _ _ _)
  · split
    · split <;> exact sameMarks_setSlot _ _ _
    · exact .refl s

theorem sameMarks_finishSlot (s : State) (k : Fin 4) : s.SameMarks (finishSlot s k) := by
  unfold finishSlot
  simp only
  split
  · exact .refl s
  · split
    · exact sameMarks_setSlot _ _ _
    · split
      · exact sameMarks_setSlot _ _ _
      · exact sameMarks_endSlot _ _ _

theorem sameMarks_advanceSlot (s : State) (k : Fin 4) : s.SameMarks (advanceSlot s k) := by
  unfold advanceSlot
  split
  · exact .refl s
  · exact .refl s
  · exact sameMarks_runSlot s k
  · exact sameMarks_finishSlot s k

theorem sameMarks_leaveRun (s : State) (k : Fin 4) (sl : Slot) : s.SameMarks (leaveRun s k sl) :=
  (sameMarks_finishSlot ((orphanReads s k).setSlot k { trimDeliveries sl with state := .ending }) k).after

theorem sameMarks_stopSlot (s : State) (k : Fin 4) (q : StopRequest) : s.SameMarks (stopSlot s k q) := by
  unfold stopSlot
  simp only
  split
  · exact .refl s
  · exact (sameMarks_setSlot _ _ _).trans (sameMarks_endSlot _ _ _)
  · exact sameMarks_leaveRun s k _
  · exact sameMarks_setSlot _ _ _

theorem sameMarks_stopAllSlots (s : State) (q : StopRequest) : s.SameMarks (stopAllSlots s q) :=
  .foldl (fun s k => sameMarks_stopSlot s k q) allSlots s

theorem sameMarks_stopBoundSlot (s : State) (c : Fin 16) : s.SameMarks (stopBoundSlot s c) := by
  unfold stopBoundSlot
  split
  · exact .refl s
  · exact sameMarks_stopSlot s _ _

theorem sameMarks_startDrain (s : State) (reason : DrainReason) : s.SameMarks (startDrain s reason) := by
  unfold startDrain
  exact (sameMarks_stopAllSlots _ _).after

theorem sameMarks_trigger (s : State) (reason : DrainReason) : s.SameMarks (trigger s reason) := by
  unfold trigger
  split
  · exact sameMarks_startDrain s reason
  · exact .refl s

theorem sameMarks_takeTriggers (s : State) (l : List DrainReason) : s.SameMarks (takeTriggers s l) := by
  unfold takeTriggers
  split
  · exact .refl s
  · exact sameMarks_startDrain s _
  · exact (sameMarks_startDrain s _).trans (.of_channels rfl)

theorem sameMarks_enterRun (s : State) (k : Fin 4) (kind : Kind) : s.SameMarks (enterRun s k kind) := by
  obtain ⟨ps, h⟩ := takeRefs_eq s (s.slot k).entry kind
  exact (sameMarks_advanceSlot _ k).after (congrArg State.channels h :)

/-! ### The ends of host reads -/

theorem sameMarks_slotReadDone (s : State) (k : Fin 4) (pos : Nat) (bs : List Byte) :
    s.SameMarks (slotReadDone s k pos bs) := by
  unfold slotReadDone
  simp only
  split
  · exact (sameMarks_setSlot _ _ _).trans (sameMarks_advanceSlot _ _)
  · exact .refl s

theorem sameMarks_slotReadFailed (s : State) (k : Fin 4) : s.SameMarks (slotReadFailed s k) := by
  unfold slotReadFailed
  simp only
  split
  · exact sameMarks_leaveRun _ _ _
  · exact .refl s

theorem sameMarks_channelFetchDone (s : State) (c : Fin 16) (bs : List Byte) :
    s.SameMarks (channelFetchDone s c bs) := by
  unfold channelFetchDone
  split
  · split
    · exact .of_set rfl rfl
    · exact .of_channels rfl
  all_goals exact .of_channels rfl

theorem sameMarks_channelFetchFailed (s : State) (c : Fin 16) : s.SameMarks (channelFetchFailed s c) := by
  unfold channelFetchFailed
  split
  · split
    · refine State.SameMarks.trans (.of_set (c := c) rfl ?_) (sameMarks_raise _ _)
      split <;> rfl
    · exact .of_channels rfl
  all_goals exact .of_channels rfl

theorem sameMarks_adminFetchDone (s : State) (bs : List Byte) : s.SameMarks (adminFetchDone s bs) := by
  obtain ⟨a, f, h⟩ := adminFetchDone_eq s bs
  exact .of_channels (by rw [h])

theorem sameMarks_adminFetchFailed (s : State) : s.SameMarks (adminFetchFailed s) := by
  obtain ⟨a, f, e, q, h⟩ := adminFetchFailed_eq s
  exact .of_channels (by rw [h])

theorem sameMarks_readDone (s : State) (x : Tag) (bs : List Byte) : s.SameMarks (readDone s x bs) := by
  unfold readDone
  split
  · exact .refl s
  · split
    · exact .refl s
    · exact sameMarks_slotReadDone _ _ _ _
  · exact sameMarks_adminFetchDone s bs
  · exact sameMarks_channelFetchDone s _ bs

theorem sameMarks_readFailed (s : State) (x : Tag) : s.SameMarks (readFailed s x) := by
  unfold readFailed
  split
  · exact .refl s
  · split
    · exact .refl s
    · exact sameMarks_slotReadFailed _ _
  · exact sameMarks_adminFetchFailed s
  · exact sameMarks_channelFetchFailed s _

theorem sameMarks_failTag (s : State) (g : Fin 16) : s.SameMarks (failTag s g) := by
  unfold failTag
  simp only
  split
  · exact (sameMarks_readFailed (s.setTag g Tag.none) _).after
  · exact .of_channels rfl

theorem sameMarks_failAllTags (s : State) : s.SameMarks (failAllTags s) := .foldl sameMarks_failTag allTags s

/-! ### Grants, and the passages that conclude a happening -/

theorem settleLink_channels (s : State) : (settleLink s).channels = s.channels :=
  (congrArg State.channels (besideTags_settleLink s) :)

theorem settlePort_channels (s : State) : (settlePort s).channels = s.channels := by
  unfold settlePort
  split
  · cases portChoice s <;> rfl
  · rfl

/-- The channel has become ABSENT, or it is there as before with its mark. -/
def Channel.FadesTo (x y : Channel) : Prop := y = Channel.none ∨ (x ≠ Channel.none ∧ y.mark = x.mark)

theorem Channel.FadesTo.refl (x : Channel) : x.FadesTo x := (em (x = Channel.none)).imp id fun h => ⟨h, rfl⟩

theorem Channel.FadesTo.trans {x y z : Channel} (h : x.FadesTo y) (h' : y.FadesTo z) : x.FadesTo z := by
  obtain hz | ⟨hy, hz⟩ := h'
  · exact .inl hz
  · obtain h | ⟨hx, hxy⟩ := h
    · exact absurd h hy
    · exact .inr ⟨hx, hz.trans hxy⟩

/-- Every channel has become ABSENT, or is there as before with its mark. -/
def State.Fades (s t : State) : Prop := ∀ c, (s.chan c).FadesTo (t.chan c)

theorem State.Fades.trans {s t u : State} (h : s.Fades t) (h' : t.Fades u) : s.Fades u := fun c => (h c).trans (h' c)

theorem State.Fades.of_channels {s t : State} (h : t.channels = s.channels) : s.Fades t := fun c => by
  rw [show t.chan c = s.chan c from congrArg (fun v => Vector.get v c) h]
  exact .refl _

theorem State.Fades.of_none {s t : State} (h : ∀ c, t.chan c = Channel.none) : s.Fades t := fun c => .inl (h c)

theorem fades_dropChannel (s : State) (c : Fin 16) : s.Fades (dropChannel s c) := fun d => by
  have h : (dropChannel s c).chan d = if d = c then Channel.none else s.chan d := get_set _ _ _ _
  rw [h]
  split
  · exact .inl rfl
  · exact .refl _

theorem fades_endDeletion (s : State) : s.Fades (endDeletion s) := by
  unfold endDeletion
  split
  · exact .of_channels rfl
  · split
    · obtain ⟨a, h⟩ := handOverAdmin_eq (dropChannel s ‹_›) .ok (s.chan ‹_›).completed
      exact (fades_dropChannel s _).trans (.of_channels (by rw [h]))
    · exact .of_channels rfl

theorem fades_foldl_quiesceChannel (l : List (Fin 16)) (s : State) : s.Fades (l.foldl quiesceChannel s) := by
  induction l generalizing s with
  | nil => exact .of_channels rfl
  | cons c l ih =>
    refine State.Fades.trans ?_ (ih (quiesceChannel s c))
    unfold quiesceChannel
    simp only
    split
    · exact fades_dropChannel s c
    · exact .of_channels rfl

theorem fades_quiesceStep (s : State) : s.Fades (quiesceStep s) := by
  have h := fades_foldl_quiesceChannel allChannels s
  unfold quiesceStep
  generalize allChannels.foldl quiesceChannel s = u at h
  simp only
  split
  · split
    · obtain ⟨rs, q, e⟩ := endQuiesce_eq u
      exact h.trans (.of_channels (by rw [e]))
    · exact h
  · exact .of_channels rfl

theorem stopped_fades (c : Fin 16) (x : Channel) : x.FadesTo (x.stopped c) := by
  by_cases h : x = Channel.none
  · subst h
    exact .inl (stopped_of_kept c fun e => e.2 rfl)
  · exact .inr ⟨h, rfl⟩

theorem fades_allStopped (s : State) : s.Fades s.allStopped := fun c => by
  have h : s.allStopped.chan c = (s.chan c).stopped c := tabulate_get _ c
  rw [h]
  exact stopped_fades c _

/-- SETTLE leaves no channel (R160). -/
theorem beginSettle_chan (s : State) (c : Fin 16) : (beginSettle s).chan c = Channel.none := get_replicate _ c

theorem endFlush_chan (s : State) (o : FlushOutcome) (c : Fin 16) : (endFlush s o).chan c = Channel.none :=
  beginSettle_chan (s.withOutcome o) c

theorem settleStandby_chan (s : State) (c : Fin 16) : (settleStandby s).chan c = Channel.none := by
  unfold settleStandby
  exact beginSettle_chan _ c

theorem fades_beginSettle (s : State) : s.Fades (beginSettle s) := .of_none (beginSettle_chan s)

theorem fades_endStop (s : State) : s.Fades (endStop s) := by
  unfold endStop
  split
  · split
    · exact fades_beginSettle (s.withOutcome .deadline)
    · exact .of_channels rfl
  · exact fades_beginSettle s

theorem fades_stopStep (s : State) : s.Fades (stopStep s) := by
  by_cases h : s.ctl.op = .draining ∧ s.ctl.phase = .stop
  · rw [stopStep_on h.1 h.2]
    split
    · exact (fades_allStopped s).trans (fades_endStop _)
    · exact fades_allStopped s
  · rw [stopStep_off (not_and_or.mp h)]
    exact .of_channels rfl

theorem fades_flushStep (s : State) : s.Fades (flushStep s) := by
  unfold flushStep
  split
  · exact fades_beginSettle (s.withOutcome .complete)
  · exact .of_channels rfl

theorem fades_settlePhases (s : State) : s.Fades (settlePhases s) :=
  (fades_endDeletion s).trans ((fades_quiesceStep _).trans ((fades_stopStep _).trans (fades_flushStep _)))

/-- A happening's conclusion leaves a channel's mark, or the channel becomes ABSENT. -/
theorem fades_conclude (s : State) : s.Fades (conclude s) :=
  (fades_settlePhases s).trans (.of_channels ((settlePort_channels _).trans (settleLink_channels _)))

end Sys2Proof.Machine
end

section
/-! SUPPORT. Standing tag requests and FREE tags (R28, R57, R131, R169): when placing requests and granting tags changes
nothing, and which changes of the state leave that so. -/

-- One theorem at a time, as in the tests above: fewer threads than the memory limit allows.
set_option Elab.async false

namespace Sys2Proof.Machine

/-! ### Requests placed (R28, R57, R131) -/

theorem refreshRequests_requests (s : State) (k : Fin 4) :
    (refreshRequests s).link.slotRequests.get k = slotWantsTag (s.slot k) := tabulate_get _ k

/-- Requests stand as their conditions say. -/
structure State.Placed (s : State) : Prop where
  fetch    : ∀ c, (s.fetchOf c).refreshed (channelWantsFetch s c) = s.fetchOf c
  admin    : s.adminFetch.refreshed (adminWantsFetch s) = s.adminFetch
  requests : ∀ k, slotWantsTag (s.slot k) = s.link.slotRequests.get k

theorem placed_iff {s : State} : s.Placed ↔ refreshRequests s = s := by
  refine ⟨fun ⟨hf, ha, hr⟩ => ?_, fun h => ⟨fun c => ?_, ?_, fun k => ?_⟩⟩
  · have hfetch : (tabulate 16 fun c => (s.fetchOf c).refreshed (channelWantsFetch s c)) = s.fetch :=
      vector_ext_get fun c => (tabulate_get _ c).trans (hf c)
    have hreq : (tabulate 4 fun k => slotWantsTag (s.slot k)) = s.link.slotRequests :=
      vector_ext_get fun k => (tabulate_get _ k).trans (hr k)
    rw [refreshRequests, hfetch, ha, hreq]
  · exact (refreshRequests_fetchOf s c).symm.trans (congrArg (·.fetchOf c) h)
  · exact (congrArg State.adminFetch h :)
  · exact (refreshRequests_requests s k).symm.trans (congrArg (·.link.slotRequests.get k) h)

theorem FetchRecord.refreshed_refreshed (w : Bool) (f : FetchRecord) : (f.refreshed w).refreshed w = f.refreshed w := by
  cases f <;> cases w <;> rfl

/-- Requests once placed stand as their conditions say. -/
theorem refreshRequests_placed (s : State) : (refreshRequests s).Placed where
  fetch c := by
    rw [refreshRequests_fetchOf]
    exact FetchRecord.refreshed_refreshed _ _
  admin := FetchRecord.refreshed_refreshed _ _
  requests k := (refreshRequests_requests s k).symm

theorem channelWantsFetch_congr {s t : State} (ho : t.ctl.op = s.ctl.op) (hc : t.channels = s.channels) (c : Fin 16) :
    channelWantsFetch t c = channelWantsFetch s c := by
  unfold channelWantsFetch State.chan
  rw [ho, hc]

theorem adminWantsFetch_congr {s t : State} (ho : t.ctl.op = s.ctl.op) (ha : t.admin = s.admin) :
    adminWantsFetch t = adminWantsFetch s := by
  unfold adminWantsFetch
  rw [ho, ha]

/-- A grant changes nothing that a fetch is asked for by. -/
theorem grantTo_wants (s : State) (t : Fin 16) (x : TagHolder) :
    (∀ c, channelWantsFetch (grantTo s t x) c = channelWantsFetch s c) ∧
      adminWantsFetch (grantTo s t x) = adminWantsFetch s := by
  have hop : (grantTo s t x).ctl.op = s.ctl.op := by cases x <;> rfl
  have hchan : (grantTo s t x).channels = s.channels := by cases x <;> rfl
  have hadmin : (grantTo s t x).admin = s.admin := by cases x <;> rfl
  exact ⟨channelWantsFetch_congr hop hchan, adminWantsFetch_congr hop hadmin⟩

/-- What a grant to a slot makes of the slot (R57). -/
def Slot.reading (sl : Slot) (s : State) : Slot :=
  { sl with reads := sl.reads + 1, nextPiece := sl.nextPiece + pieceLength s sl sl.nextPiece }

/-- A grant leaves every other request as its conditions say, and so the one it served. -/
theorem grantTo_placed {s : State} (h : s.Placed) (t : Fin 16) (x : TagHolder) : (grantTo s t x).Placed := by
  obtain ⟨hfetch, hadmin, hreq⟩ := h
  obtain ⟨hwants, hwantsAdmin⟩ := grantTo_wants s t x
  refine ⟨fun d => ?_, ?_, fun j => ?_⟩
  · rw [hwants]
    cases x with
    | none | slot k | admin => exact hfetch d
    | channel c =>
      have hset : (grantTo s t (.channel c)).fetchOf d =
          if d = c then .inFlight (fetchCount (s.chan c).pendingCount (8 - (s.chan c).queue.length)
            ((s.chan c).size - (s.chan c).head)) else s.fetchOf d := get_set _ _ _ _
      rw [hset]
      by_cases hd : d = c
      · rw [if_pos hd]
        rfl
      · rw [if_neg hd]
        exact hfetch d
  · rw [hwantsAdmin]
    cases x with
    | none | slot k | channel c => exact hadmin
    | admin => rfl
  · cases x with
    | none | admin | channel c => exact hreq j
    | slot k =>
      have hslot : (grantTo s t (.slot k)).slot j = if j = k then (s.slot k).reading s else s.slot j :=
        get_set _ _ _ _
      have hset : (grantTo s t (.slot k)).link.slotRequests.get j =
          if j = k then slotWantsTag ((s.slot k).reading s) else s.link.slotRequests.get j := get_set _ _ _ _
      rw [hslot, hset]
      by_cases hj : j = k
      · rw [if_pos hj, if_pos hj]
      · rw [if_neg hj, if_neg hj]
        exact hreq j

theorem grantTags_placed (n : Nat) {s : State} (h : s.Placed) : (grantTags n s).Placed := by
  induction n generalizing s with
  | zero => exact h
  | succ n ih =>
    obtain hs | ⟨t, x, hu, ht, hx⟩ := noGrant_or s
    · rwa [grantTags_of_noGrant hs]
    · rw [grantTags_succ hu ht hx]
      exact ih (grantTo_placed h t x)

/-- Outside ACTIVE no fetch is asked for (R28, R131). -/
theorem channelWantsFetch_of_not_active {s : State} (h : s.ctl.op ≠ .active) (c : Fin 16) :
    channelWantsFetch s c = false := by simp [channelWantsFetch, h]

theorem adminWantsFetch_of_not_active {s : State} (h : s.ctl.op ≠ .active) : adminWantsFetch s = false := by
  simp [adminWantsFetch, h]

/-! ### Settled links (R169) -/

/-- Requests stand as their conditions say, and none beside a FREE tag while the link is UP. -/
def State.Settled (s : State) : Prop := s.Placed ∧ s.noGrant

theorem settleLink_settled (s : State) : (settleLink s).Settled :=
  ⟨grantTags_placed 16 (refreshRequests_placed s), settleLink_noGrant s⟩

/-- Nothing changes where the link is settled, and only there. -/
theorem settled_iff {s : State} : s.Settled ↔ settleLink s = s := by
  refine ⟨fun ⟨hp, hn⟩ => ?_, fun h => h ▸ settleLink_settled s⟩
  rw [settleLink, placed_iff.mp hp, grantTags_of_noGrant hn]

/-- What placing requests and granting tags reads and writes is as in `s`. -/
structure State.Quiet (s t : State) : Prop where
  fetch       : t.fetch = s.fetch
  adminFetch  : t.adminFetch = s.adminFetch
  wantsFetch  : ∀ c, channelWantsFetch t c = channelWantsFetch s c
  wantsAdmin  : adminWantsFetch t = adminWantsFetch s
  wantsTag    : ∀ k, slotWantsTag (t.slot k) = slotWantsTag (s.slot k)
  up          : t.link.up = s.link.up
  requests    : t.link.slotRequests = s.link.slotRequests
  tags        : ∀ g, (t.tag g).state = (s.tag g).state

namespace State.Quiet

theorem refl (s : State) : s.Quiet s := ⟨rfl, rfl, fun _ => rfl, rfl, fun _ => rfl, rfl, rfl, fun _ => rfl⟩

theorem trans {s t u : State} (h : s.Quiet t) (h' : t.Quiet u) : s.Quiet u :=
  ⟨h'.fetch.trans h.fetch, h'.adminFetch.trans h.adminFetch, fun c => (h'.wantsFetch c).trans (h.wantsFetch c),
    h'.wantsAdmin.trans h.wantsAdmin, fun k => (h'.wantsTag k).trans (h.wantsTag k), h'.up.trans h.up,
    h'.requests.trans h.requests, fun g => (h'.tags g).trans (h.tags g)⟩

end State.Quiet

/-- A round-robin search comes to every index. -/
theorem searchAfter_none_iff {n : Nat} [NeZero n] {p : Fin n} {f : Fin n → Bool} :
    searchAfter p f = none ↔ ∀ i, f i = false := by
  refine ⟨fun h i => ?_, searchAfter_eq_none p⟩
  have hmem : i ∈ (List.range n).map (indexAfter p) :=
    List.mem_map.mpr ⟨stepsAfter p i, List.mem_range.mpr (stepsAfter_lt p i), indexAfter_stepsAfter p i⟩
  simpa using List.find?_eq_none.mp h i hmem

theorem grantHolder_of_unasked {s : State} (h : ∀ k, s.link.slotRequests.get k = false) :
    grantHolder s =
      if s.adminFetch = .requesting then some .admin
      else (searchAfter s.link.channelPointer fun c => s.fetchOf c == .requesting).map .channel := by
  simp only [grantHolder, searchAfter_none_iff.mpr h]

/-- No request stands (R169). -/
theorem grantHolder_eq_none {s : State} :
    grantHolder s = none ↔
      (∀ k, s.link.slotRequests.get k = false) ∧ s.adminFetch ≠ .requesting ∧ ∀ c, s.fetchOf c ≠ .requesting := by
  by_cases hk : ∀ k, s.link.slotRequests.get k = false
  · rw [grantHolder_of_unasked hk]
    by_cases ha : s.adminFetch = .requesting
    · simp [ha]
    · simp [ha, hk, searchAfter_none_iff]
  · refine iff_of_false (fun h => ?_) fun h => hk h.1
    cases hsearch : searchAfter s.link.slotPointer fun k => s.link.slotRequests.get k with
    | none => exact hk (searchAfter_none_iff.mp hsearch)
    | some k =>
      simp only [grantHolder, hsearch] at h
      cases h

theorem quiet_settled {s t : State} (h : s.Quiet t) (hs : s.Settled) : t.Settled := by
  obtain ⟨⟨hf, ha, hr⟩, hn⟩ := hs
  have hfetch : ∀ c, t.fetchOf c = s.fetchOf c := fun c => congrArg (fun v => Vector.get v c) h.fetch
  have hreq : ∀ k, t.link.slotRequests.get k = s.link.slotRequests.get k := fun k => by rw [h.requests]
  refine ⟨⟨fun c => ?_, ?_, fun k => ?_⟩, ?_⟩
  · rw [hfetch, h.wantsFetch]
    exact hf c
  · rw [h.adminFetch, h.wantsAdmin]
    exact ha
  · rw [h.wantsTag, hreq]
    exact hr k
  · obtain hn | hn | hn := hn
    · exact .inl (h.up.trans hn)
    · refine .inr (.inl ?_)
      rw [← hn]
      simp only [freeTag, h.tags]
    · refine .inr (.inr ?_)
      rw [grantHolder_eq_none] at hn ⊢
      simp only [hreq, hfetch, h.adminFetch]
      exact hn

theorem grantPort_quiet (s : State) (x : PortHolder) : s.Quiet (grantPort s x) := by
  cases x with
  | slot k =>
    refine ⟨rfl, rfl, fun _ => rfl, rfl, fun j => ?_, rfl, rfl, fun _ => rfl⟩
    have hslot : (grantPort s (.slot k)).slot j = if j = k then { s.slot k with port := .inProgress } else s.slot j :=
      get_set _ _ _ _
    rw [hslot]
    split
    · subst_vars
      rfl
    · rfl
  | none | refreshEngine | scrubUnit | selfRefreshEntry | selfRefreshExit | arrayStart =>
    exact ⟨rfl, rfl, fun _ => rfl, rfl, fun _ => rfl, rfl, rfl, fun _ => rfl⟩

theorem settlePort_quiet (s : State) : s.Quiet (settlePort s) := by
  unfold settlePort
  split
  · exact grantPort_quiet s _
  · exact .refl s

/-- A happening that is concluded leaves the link settled. -/
theorem conclude_linkSettled (s : State) : (conclude s).Settled :=
  quiet_settled (settlePort_quiet _) (settleLink_settled _)

end Sys2Proof.Machine
end

section
/-! SUPPORT. How each command ends (`exec_ends`): with nothing that the link or the channels take part in, with tags asked
for and granted, concluded, or with core logic started; and what it leaves of each channel's durable mark (R37). -/

-- One theorem at a time, as in the tests above: fewer threads than the memory limit allows.
set_option Elab.async false

namespace Sys2Proof.Machine

/-! ### What a command may do to a durable mark (R37) -/

/-- The mark stays; or the channel is ABSENT; or it is created; or a MARK is carried out on it while it is clean. -/
def Channel.MarkedBy (i : Instr) (x y : Channel) : Prop :=
  y.mark = x.mark ∨ y = Channel.none ∨ (i = .createChannel ∧ x.state = .absent ∧ y.mark = 0) ∨
    (i = .slotSchedulerChoice ∧ x.clean = true ∧
      ∃ f rest, x.queue = f :: rest ∧ descKind f.entry = some .mark ∧ y.mark = wordAt f.entry 40)

def State.MarkedBy (i : Instr) (s t : State) : Prop := ∀ c, (s.chan c).MarkedBy i (t.chan c)

theorem State.SameMarks.markedBy {s t : State} (h : s.SameMarks t) (i : Instr) : State.MarkedBy i s t :=
  fun c => .inl (h c)

theorem State.MarkedBy.of_channels {i : Instr} {s t : State} (h : t.channels = s.channels := by rfl) :
    State.MarkedBy i s t := (State.SameMarks.of_channels h).markedBy i

theorem State.MarkedBy.of_none {i : Instr} {s t : State} (h : ∀ c, t.chan c = Channel.none) : State.MarkedBy i s t :=
  fun c => .inr (.inl (h c))

theorem State.MarkedBy.fades {i : Instr} {s t u : State} (h : State.MarkedBy i s t) (h' : t.Fades u) :
    State.MarkedBy i s u := fun c => by
  obtain hu | ⟨ht, hm⟩ := h' c
  · exact .inr (.inl hu)
  · obtain h | h | ⟨hi, hx, h⟩ | ⟨hi, hx, f, rest, hq, hk, h⟩ := h c
    · exact .inl (hm.trans h)
    · exact absurd h ht
    · exact .inr (.inr (.inl ⟨hi, hx, hm.trans h⟩))
    · exact .inr (.inr (.inr ⟨hi, hx, f, rest, hq, hk, hm.trans h⟩))

/-! ### The ends of a command -/

/-- How a command ends, by what its end does to tag requests, tags and channels. -/
inductive State.Ends (i : Instr) (s t : State) : Prop
  | quiet (hq : s.Quiet t) (hc : t.channels = s.channels)
  | linked (u : State) (hu : State.MarkedBy i s u) (ht : t = settleLink u)
  | concluded (u : State) (hu : State.MarkedBy i s u) (ht : t = conclude u)
  | started (ht : t = poweredOn s ∨ t = warmStarted s)
  | entered (hh : s.port.holder = .selfRefreshEntry) (ht : t = entryComplete s)

/-- Each next state that the outcome can be is an end of the command. -/
def State.EndsIn (i : Instr) (s : State) (o : Out) : Prop := ∀ t, o = .next t → State.Ends i s t

section
variable {i : Instr} {s t u : State}

theorem endsIn_next (h : State.Ends i s t) : State.EndsIn i s (.next t) := fun _ e => by
  cases e
  exact h

theorem endsIn_fault (f : Fault) : State.EndsIn i s (.fault f) := fun _ e => nomatch e

theorem endsIn_same : State.EndsIn i s (.next s) := endsIn_next (.quiet (.refl s) rfl)

theorem endsIn_linked (h : State.MarkedBy i s u) : State.EndsIn i s (.next (settleLink u)) :=
  endsIn_next (.linked u h rfl)

theorem endsIn_concluded (h : State.MarkedBy i s u) : State.EndsIn i s (.next (conclude u)) :=
  endsIn_next (.concluded u h rfl)

theorem endsIn_ite {p : Prop} [Decidable p] (h : p → State.EndsIn i s (.next t)) :
    State.EndsIn i s (.next (if p then t else s)) := by
  split
  · exact h ‹_›
  · exact endsIn_same

end

/-! ### Quiet changes -/

/-- Nothing that a quiet change must leave has changed; for an update of other fields each equation holds by
computation. -/
theorem State.Quiet.untouched {s t : State} (hf : t.fetch = s.fetch := by rfl)
    (ha : t.adminFetch = s.adminFetch := by rfl) (hc : t.channels = s.channels := by rfl)
    (had : t.admin = s.admin := by rfl) (ho : t.ctl.op = s.ctl.op := by rfl) (hs : t.slots = s.slots := by rfl)
    (hu : t.link.up = s.link.up := by rfl) (hr : t.link.slotRequests = s.link.slotRequests := by rfl)
    (ht : t.link.tags = s.link.tags := by rfl) : s.Quiet t where
  fetch := hf
  adminFetch := ha
  wantsFetch := channelWantsFetch_congr ho hc
  wantsAdmin := adminWantsFetch_congr ho had
  wantsTag k := by simp only [State.slot, hs]
  up := hu
  requests := hr
  tags g := by simp only [State.tag, ht]

/-- A change that leaves the channels and is quiet. -/
def State.Still (s t : State) : Prop := s.Quiet t ∧ t.channels = s.channels

theorem State.Still.refl (s : State) : s.Still s := ⟨.refl s, rfl⟩

theorem State.Still.trans {s t u : State} (h : s.Still t) (h' : t.Still u) : s.Still u :=
  ⟨h.1.trans h'.1, h'.2.trans h.2⟩

theorem still_elapse (s : State) (n : Nat) : s.Still (s.elapse n) :=
  ⟨⟨rfl, rfl, fun _ => rfl, rfl, fun _ => rfl, rfl, rfl, fun g => by rw [elapse_tag]⟩, rfl⟩

theorem still_raise (s : State) (c : Cause) : s.Still (s.raise c) := by
  obtain ⟨e, q, h⟩ := raise_eq s c
  rw [h]
  exact ⟨.untouched, rfl⟩

theorem still_raiseAlert (s : State) (d : AlertDetail) : s.Still (s.raiseAlert d) :=
  (still_raise s _).trans ⟨.untouched, rfl⟩

theorem still_sendVector (s : State) (r : Fin 9) : s.Still (sendVector s r) := by
  obtain ⟨q, rs, h⟩ := sendVector_eq s r
  rw [h]
  exact ⟨.untouched, rfl⟩

theorem still_reportFindings (s : State) (ws : List (Nat × Finding)) : s.Still (reportFindings s ws) := by
  obtain ⟨hs, e, q, h⟩ := reportFindings_eq s ws
  rw [h]
  exact ⟨.untouched, rfl⟩

theorem still_settlePort (s : State) : s.Still (settlePort s) := ⟨settlePort_quiet s, settlePort_channels s⟩

theorem endsIn_still {i : Instr} {s t : State} (h : s.Still t) : State.EndsIn i s (.next t) :=
  endsIn_next (.quiet h.1 h.2)

theorem endsIn_untouched {i : Instr} {s t : State} (hq : s.Quiet t) (hc : t.channels = s.channels := by rfl) :
    State.EndsIn i s (.next t) := endsIn_next (.quiet hq hc)

/-! ### Commands of the admin ring (R134) -/

theorem sameMarks_done {s t : State} (h : s.SameMarks t) (st : Status) (v : Word32) :
    s.SameMarks (Taken.done t st v).state := h.trans (sameMarks_handOverAdmin t st v)

theorem sameMarks_refused (s : State) (st : Status) : s.SameMarks (Taken.refused s st).state :=
  sameMarks_handOverAdmin s st 0

theorem endsIn_takeCommand {i : Instr} {codes : Nat → Bool} {body : State → Record → Taken} {fin : State → State}
    (hf : ∀ {s u : State}, State.MarkedBy i s u → State.Ends i s (fin u))
    (hb : ∀ (s : State) (r : Record), State.MarkedBy i s (body s r).state) (s : State) :
    State.EndsIn i s (takeCommand codes body fin s) := by
  unfold takeCommand
  split
  · exact endsIn_same
  · split
    · exact endsIn_next (hf (hb (beginCommand s _ _) _))
    · exact endsIn_same

/-- A command of the admin ring that leaves every mark, and ends with the link settled. -/
theorem endsIn_taken {i : Instr} {codes : Nat → Bool} {body : State → Record → Taken}
    (hb : ∀ (s : State) (r : Record), s.SameMarks (body s r).state) (s : State) :
    State.EndsIn i s (takeCommand codes body settleLink s) :=
  endsIn_takeCommand (fun h => .linked _ h rfl) (fun s r => (hb s r).markedBy i) s

/-- A command of the admin ring that leaves every mark before it is concluded. -/
theorem endsIn_takenConcluded {i : Instr} {codes : Nat → Bool} {body : State → Record → Taken}
    (hb : ∀ (s : State) (r : Record), s.SameMarks (body s r).state) (s : State) :
    State.EndsIn i s (takeCommand codes body conclude s) :=
  endsIn_takeCommand (fun h => .concluded _ h rfl) (fun s r => (hb s r).markedBy i) s

theorem sameMarks_withPartition {s : State} {r : Record} {body : Fin 16 → Taken}
    (h : ∀ j, s.SameMarks (body j).state) : s.SameMarks (withPartition s r body).state := by
  unfold withPartition
  split
  · exact sameMarks_refused s _
  · split
    · exact sameMarks_refused s _
    · exact h _

theorem sameMarks_withChannel {s : State} {r : Record} {body : Fin 16 → Taken}
    (h : ∀ c, s.SameMarks (body c).state) : s.SameMarks (withChannel s r body).state := by
  unfold withChannel
  split
  · exact sameMarks_refused s _
  · split
    · exact sameMarks_refused s _
    · exact h _

theorem sameMarks_definePart (s : State) (r : Record) (j : Fin 16) : s.SameMarks (definePart s r j).state := by
  obtain ⟨st, h⟩ | ⟨p, -, h⟩ := definePart_cases s r j <;> rw [h]
  · exact sameMarks_refused s st
  · exact sameMarks_done (.of_channels rfl) _ _

theorem sameMarks_freezePart (s : State) (j : Fin 16) : s.SameMarks (freezePart s j).state := by
  unfold freezePart
  split_ifs
  · exact sameMarks_refused s _
  · exact sameMarks_refused s _
  · exact sameMarks_refused s _
  · exact sameMarks_done (.of_channels rfl) _ _

theorem sameMarks_releasePart (s : State) (j : Fin 16) : s.SameMarks (releasePart s j).state := by
  unfold releasePart
  split_ifs
  · exact sameMarks_refused s _
  · exact sameMarks_done (.of_channels rfl) _ _
  · exact .of_channels rfl

theorem sameMarks_clearTornPart (s : State) (j : Fin 16) : s.SameMarks (clearTornPart s j).state := by
  unfold clearTornPart
  split_ifs
  · exact sameMarks_refused s _
  · exact sameMarks_done (.of_channels rfl) _ _

/-- A posted record leaves every mark (R180). -/
theorem sameMarks_postRecord (s : State) (r : Record) (bytes : List Byte) : s.SameMarks (postRecord s r bytes) := by
  obtain ⟨q, h⟩ := handOut_eq s (.write (longAt r 8) bytes)
  exact .of_channels (congrArg State.channels h :)

theorem sameMarks_getPartitions (s : State) (r : Record) : s.SameMarks (getPartitions s r).state := by
  unfold getPartitions
  split_ifs
  · exact sameMarks_done (sameMarks_postRecord s r _) _ _
  · exact sameMarks_refused s _

theorem sameMarks_getHealth (s : State) (r : Record) : s.SameMarks (getHealth s r).state := by
  unfold getHealth
  split_ifs
  · exact sameMarks_done (sameMarks_postRecord s r _) _ _
  · exact sameMarks_refused s _

theorem sameMarks_getRetentionRecord (s : State) (r : Record) : s.SameMarks (getRetentionRecord s r).state := by
  unfold getRetentionRecord
  split_ifs
  · exact sameMarks_refused s _
  · exact sameMarks_refused s _
  · exact sameMarks_done (sameMarks_postRecord s r _) _ _

theorem sameMarks_deleteChan (s : State) (c : Fin 16) : s.SameMarks (deleteChan s c).state := by
  unfold deleteChan
  refine State.SameMarks.trans ?_ (sameMarks_stopBoundSlot _ c)
  exact .of_set (c := c) rfl (by rfl)

theorem sameMarks_pauseChan (s : State) (c : Fin 16) : s.SameMarks (pauseChan s c).state := by
  unfold pauseChan
  split_ifs
  · exact sameMarks_refused s _
  · exact sameMarks_done (sameMarks_setChan (by rfl)) _ _

theorem sameMarks_resumeChan (s : State) (c : Fin 16) : s.SameMarks (resumeChan s c).state := by
  unfold resumeChan
  simp only
  split_ifs
  · exact sameMarks_done (sameMarks_setChan (by rfl)) _ _
  · exact sameMarks_refused s _

theorem sameMarks_createCq (s : State) (r : Record) : s.SameMarks (createCq s r).state := by
  unfold createCq
  split
  · exact sameMarks_refused s _
  · split_ifs
    · exact sameMarks_refused s _
    · exact sameMarks_done (.of_channels rfl) _ _
    · exact sameMarks_refused s _

theorem sameMarks_deleteCq (s : State) (r : Record) : s.SameMarks (deleteCq s r).state := by
  unfold deleteCq
  split
  · exact sameMarks_refused s _
  · rename_i q _
    obtain ⟨o, rs, h⟩ := signalRest_eq s q
    split_ifs
    · exact sameMarks_refused s _
    · exact sameMarks_refused s _
    · exact sameMarks_done (t := (signalRest s q).setRing q Ring.none) (.of_channels (congrArg State.channels h :)) _ _

theorem sameMarks_setRefresh (s : State) (r : Record) : s.SameMarks (setRefresh s r).state := by
  unfold setRefresh
  simp only
  split
  · exact sameMarks_refused s _
  · split
    · exact sameMarks_refused s _
    · exact sameMarks_done (.of_channels rfl) _ _

theorem sameMarks_setScrub (s : State) (r : Record) : s.SameMarks (setScrub s r).state := by
  unfold setScrub
  simp only
  split
  · exact sameMarks_refused s _
  · exact sameMarks_done (.of_channels rfl) _ _

theorem sameMarks_clearErrors (s : State) (r : Record) : s.SameMarks (clearErrors s r).state :=
  sameMarks_done (.of_channels rfl) _ _

theorem sameMarks_setMonitor (s : State) (r : Record) : s.SameMarks (setMonitor s r).state := by
  unfold setMonitor
  simp only
  split_ifs
  · exact sameMarks_refused s _
  · exact sameMarks_refused s _
  · exact sameMarks_refused s _
  · exact sameMarks_done (.of_channels rfl) _ _
  · exact sameMarks_done (.of_channels rfl) _ _

theorem sameMarks_setLinkTimeout (s : State) (r : Record) : s.SameMarks (setLinkTimeout s r).state := by
  unfold setLinkTimeout
  simp only
  split
  · exact sameMarks_refused s _
  · exact sameMarks_done (.of_channels rfl) _ _

theorem sameMarks_setDrain (s : State) (r : Record) : s.SameMarks (setDrain s r).state := by
  unfold setDrain
  simp only
  split
  · exact sameMarks_refused s _
  · exact sameMarks_done (.of_channels rfl) _ _

theorem sameMarks_claimRetained (s : State) (r : Record) : s.SameMarks (claimRetained s r).state := by
  unfold claimRetained
  split
  · exact sameMarks_refused s _
  · exact sameMarks_done (.of_channels rfl) _ _

theorem sameMarks_discardRetained (s : State) (r : Record) : s.SameMarks (discardRetained s r).state := by
  unfold discardRetained
  split
  · exact sameMarks_refused s _
  · exact sameMarks_done (.of_channels rfl) _ _

/-- A channel that CREATE_CHANNEL makes has mark 0; every other stays (R40). -/
theorem markedBy_createChannel (s : State) (r : Record) :
    State.MarkedBy .createChannel s (createChannel s r).state := by
  have hrefused : ∀ st, State.MarkedBy .createChannel s (Taken.refused s st).state :=
    fun st => (sameMarks_refused s st).markedBy _
  unfold createChannel
  split
  · exact hrefused _
  split
  · exact hrefused _
  rename_i c _
  split
  · exact hrefused _
  rename_i habsent
  split
  · exact hrefused _
  rename_i q _
  split
  · exact hrefused _
  split
  · split
    · rename_i cls soe _ _ _
      obtain ⟨a, h⟩ := handOverAdmin_eq (bindChannel s c (newChannel r cls soe q)) .ok 0
      intro d
      have hd : (Taken.done (bindChannel s c (newChannel r cls soe q)) .ok 0).state.chan d =
          if d = c then newChannel r cls soe q else s.chan d :=
        (congrArg (·.chan d) h).trans (get_set s.channels c d _)
      rw [hd]
      split
      · subst_vars
        exact .inr (.inr (.inl ⟨rfl, not_not.mp habsent, rfl⟩))
      · exact .inl rfl
    · exact hrefused _
  · exact hrefused _

/-! ### Register writes -/

theorem endsIn_enable (s : State) : State.EndsIn .enable s (execEnable s) := by
  unfold execEnable
  split
  · exact endsIn_same
  split
  · split
    · unfold enableStandby
      simp only
      split
      · exact endsIn_concluded .of_channels
      · exact endsIn_concluded (((sameMarks_startDrain _ _).after).markedBy _)
    · exact endsIn_still (still_raise s _)
  · split
    · exact endsIn_same
    · split
      · exact endsIn_untouched .untouched
      · exact endsIn_still (still_raise s _)
  all_goals exact endsIn_same

/-- FUNCTION_RESET leaves no channel (R25), and slots under SILENT append to none (R75). -/
theorem functionReset_chan (s : State) (c : Fin 16) : (functionReset s).chan c = Channel.none := by
  have hu := stopAllSlots_silencedOn (abandoned_awaitsNone s)
  rw [← functionReset_eq] at hu
  exact (congrArg (fun v => Vector.get v c) (congrArg State.channels hu.frame)).trans (get_replicate _ c)

theorem endsIn_functionReset (s : State) : State.EndsIn .functionReset s (execFunctionReset s) := by
  unfold execFunctionReset
  split
  · exact endsIn_same
  split
  · exact endsIn_concluded (.of_none (functionReset_chan s))
  · exact endsIn_ite fun _ => endsIn_untouched .untouched

theorem endsIn_notifySqTail (ring : BitVec 8) (index : BitVec 16) (s : State) :
    State.EndsIn (.notifySqTail ring index) s (execNotifySqTail ring index s) := by
  unfold execNotifySqTail
  split
  · exact endsIn_same
  split
  · unfold notifyAdminTail
    split
    · exact endsIn_linked .of_channels
    · exact endsIn_still (still_raise s _)
  split
  · exact endsIn_still (still_raise s _)
  · unfold notifyChannelTail
    split
    · exact endsIn_still (still_raise s _)
    · exact endsIn_linked ((sameMarks_setChan (by rfl)).markedBy _)

theorem sameMarks_faultRing (s : State) (r : Fin 9) : s.SameMarks (faultRing s r) := fun c => by
  have hchan : (faultRing s r).chan c = (s.chan c).haltFor r := by
    unfold faultRing
    simp only
    refine (tabulate_get _ c).trans ?_
    rw [raise_chan]
    split
    · obtain ⟨q, rs, h⟩ := sendVector_eq (s.setRing r { s.ring r with state := .faulted }) r
      rw [h]
      rfl
    · rfl
  rw [hchan]
  unfold Channel.haltFor
  split <;> rfl

theorem endsIn_notifyCqHead (ring : BitVec 8) (index : BitVec 16) (s : State) :
    State.EndsIn (.notifyCqHead ring index) s (execNotifyCqHead ring index s) := by
  unfold execNotifyCqHead
  split
  · exact endsIn_same
  split
  · exact endsIn_still (still_raise s _)
  split
  · unfold takeHead
    simp only
    split
    · exact endsIn_concluded .of_channels
    · exact endsIn_concluded ((sameMarks_faultRing s _).markedBy _)
  · exact endsIn_still (still_raise s _)

theorem still_takeBeat (s : State) (token : BitVec 8) : s.Still (takeBeat s token) := by
  unfold takeBeat
  simp only
  split
  · exact ⟨.untouched, rfl⟩
  · exact ⟨.untouched, rfl⟩
  · split
    · exact ⟨.untouched, rfl⟩
    · split
      · refine State.Still.trans ?_ (still_raiseAlert _ _)
        exact ⟨.untouched, rfl⟩
      · exact ⟨.untouched, rfl⟩
  · split <;> exact ⟨.untouched, rfl⟩

/-! ### Refresh, self-refresh and timers -/

theorem endsIn_scrubLine (fs : List Finding) (s : State) : State.EndsIn (.scrubLine fs) s (execScrubLine fs s) := by
  unfold execScrubLine
  split
  · split
    · refine endsIn_still ?_
      unfold scrubLineEnd
      simp only
      refine State.Still.trans ?_ ((still_reportFindings _ _).trans (still_settlePort _))
      split <;> exact ⟨.untouched, rfl⟩
    · exact endsIn_fault _
  · exact endsIn_same

theorem still_accrue (s : State) : s.Still (accrue s) := by
  unfold accrue
  split
  · exact ⟨.untouched, rfl⟩
  · refine State.Still.trans ?_ (still_raise _ _)
    exact ⟨.untouched, rfl⟩

theorem still_intervalExpired (s : State) : s.Still (intervalExpired s) := by
  refine (still_accrue s).trans (State.Still.trans ?_ (still_settlePort _))
  exact ⟨.untouched, rfl⟩

theorem endsIn_intervalExpiry (s : State) : State.EndsIn .intervalExpiry s (execIntervalExpiry s) := by
  unfold execIntervalExpiry
  split
  · exact endsIn_same
  split
  · exact endsIn_same
  · exact endsIn_still ((still_elapse s _).trans (still_intervalExpired _))

theorem still_scrubTicked (s : State) : s.Still (scrubTicked s) := by
  unfold scrubTicked
  simp only
  split
  · exact ⟨.untouched, rfl⟩
  · refine State.Still.trans ?_ (still_settlePort _)
    exact ⟨.untouched, rfl⟩

theorem endsIn_scrubTick (s : State) : State.EndsIn .scrubTick s (execScrubTick s) := by
  unfold execScrubTick
  split
  · exact endsIn_same
  split
  · exact endsIn_same
  · exact endsIn_still ((still_elapse s _).trans (still_scrubTicked _))

theorem still_delayExpired (s : State) (r : Fin 9) : s.Still (delayExpired s r) := by
  unfold delayExpired
  split
  · exact still_sendVector _ r
  · exact ⟨.untouched, rfl⟩

theorem endsIn_delayTimerExpiry (r : Fin 9) (s : State) :
    State.EndsIn (.delayTimerExpiry r) s (execDelayTimerExpiry r s) := by
  unfold execDelayTimerExpiry
  split
  · exact endsIn_same
  split
  · exact endsIn_same
  · exact endsIn_still ((still_elapse s _).trans (still_delayExpired _ r))

theorem still_periodExpired (s : State) : s.Still (periodExpired s) := by
  unfold periodExpired
  refine State.Still.trans ?_ (still_raiseAlert _ _)
  exact ⟨.untouched, rfl⟩

theorem endsIn_periodTimerExpiry (s : State) : State.EndsIn .periodTimerExpiry s (execPeriodTimerExpiry s) :=
  endsIn_ite fun _ => endsIn_still ((still_elapse s _).trans (still_periodExpired _))

theorem endsIn_graceTimerExpiry (s : State) : State.EndsIn .graceTimerExpiry s (execGraceTimerExpiry s) := by
  refine endsIn_ite fun _ => endsIn_concluded (State.SameMarks.markedBy ?_ _)
  unfold graceExpired
  exact (sameMarks_trigger _ _).after

theorem endsIn_drainDeadlineExpiry (s : State) :
    State.EndsIn .drainDeadlineExpiry s (execDrainDeadlineExpiry s) := by
  unfold execDrainDeadlineExpiry
  split
  · exact endsIn_same
  split
  · exact endsIn_same
  · unfold deadlineExpired
    split
    · exact endsIn_concluded (.of_none (endFlush_chan _ _))
    · exact endsIn_concluded .of_channels

theorem endsIn_selfRefreshEntry (s : State) : State.EndsIn .selfRefreshEntry s (execSelfRefreshEntry s) :=
  endsIn_ite fun h => endsIn_next (.entered h.2 rfl)

theorem endsIn_selfRefreshExit (s : State) : State.EndsIn .selfRefreshExit s (execSelfRefreshExit s) :=
  endsIn_ite fun _ =>
    endsIn_concluded (((sameMarks_takeTriggers (exitComplete s) _).after (by rfl)).markedBy _)

/-! ### Completions -/

theorem sameMarks_writeEntry (s : State) (r : Fin 9) (f : Completion) : s.SameMarks (writeEntry s r f) := by
  obtain ⟨q, rs, h⟩ := writeEntry_eq s r f
  exact .of_channels (congrArg State.channels h :)

theorem popped_mark (x : Channel) : x.popped.mark = x.mark := by
  rw [popped_eq]

theorem sameMarks_writeFromChannel (s : State) (r : Fin 9) (c : Fin 16) (f : Completion) :
    s.SameMarks (writeFromChannel s r c f) := by
  unfold writeFromChannel
  refine State.SameMarks.trans ?_ (sameMarks_writeEntry _ r f)
  exact .of_set (c := c) rfl (popped_mark _)

theorem endsIn_completionWrite (r : Fin 9) (s : State) :
    State.EndsIn (.completionWrite r) s (execCompletionWrite r s) := by
  have hchannel : ∀ c f, State.MarkedBy (.completionWrite r) s (writeFromChannel s r c f) :=
    fun c f => (sameMarks_writeFromChannel s r c f).markedBy _
  unfold execCompletionWrite
  split
  · exact endsIn_same
  split
  · unfold writeAtWork
    split
    · split
      · exact endsIn_same
      · exact endsIn_concluded (((sameMarks_writeEntry _ _ _).after (by rfl)).markedBy _)
    · split
      · exact endsIn_same
      · split
        · exact endsIn_same
        · exact endsIn_concluded (hchannel _ _)
  split
  · unfold writeInFlush
    split
    · exact endsIn_same
    · split
      · split
        · exact endsIn_concluded (((sameMarks_writeEntry _ _ _).after (by rfl)).markedBy _)
        · exact endsIn_concluded (hchannel _ _)
      · exact endsIn_same
  · exact endsIn_same

theorem endsIn_completionDiscard (src : CompletionSource) (s : State) :
    State.EndsIn (.completionDiscard src) s (execCompletionDiscard src s) := by
  unfold execCompletionDiscard
  split
  · exact endsIn_same
  split
  · unfold discardAtWork
    split
    · exact endsIn_ite fun _ => endsIn_concluded .of_channels
    · exact endsIn_ite fun _ => endsIn_concluded ((sameMarks_setChan (by rfl)).markedBy _)
  split
  · unfold discardInFlush
    split
    · exact endsIn_same
    · split
      · split
        · exact endsIn_concluded .of_channels
        · exact endsIn_concluded (State.SameMarks.markedBy (.of_set rfl (popped_mark _)) _)
      · exact endsIn_same
  · exact endsIn_same

theorem converted_mark (x : Channel) (c : Fin 16) : (x.converted c).mark = x.mark := by
  unfold Channel.converted
  split <;> rfl

theorem endsIn_deleteConversion (c : Fin 16) (s : State) :
    State.EndsIn (.deleteConversion c) s (execDeleteConversion c s) :=
  endsIn_ite fun _ => endsIn_concluded ((sameMarks_setChan (converted_mark _ c)).markedBy _)

/-! ### Descriptors -/

theorem sameMarks_reportFindings (s : State) (ws : List (Nat × Finding)) : s.SameMarks (reportFindings s ws) :=
  .of_channels (still_reportFindings s ws).2

/-- A start leaves every mark, but for a MARK, which takes a clean channel's (R37). -/
theorem markedBy_scheduleChoice (s : State) (k : Fin 4) (c : Fin 16) (turn : Turn) :
    State.MarkedBy .slotSchedulerChoice s (scheduleChoice s k c turn) := by
  unfold scheduleChoice
  split
  · exact .of_channels
  rename_i f rest hq
  generalize hv : ({ startSlot s k c f rest with sched := s.sched.setTurn (choiceClass s) turn } : State) = v
  have hslot : (v.slot k).entry = f.entry ∧ (v.slot k).chan = c := by
    subst hv
    exact ⟨congrArg Slot.entry (State.setSlot_slot_self _ k _), congrArg Slot.chan (State.setSlot_slot_self _ k _)⟩
  have hchan : ∀ d, v.chan d = if d = c then { s.chan c with queue := rest, slot := some k } else s.chan d := by
    subst hv
    exact fun d => get_set _ _ _ _
  have hsame : s.SameMarks v := fun d => by
    rw [hchan]
    split
    · subst_vars
      rfl
    · rfl
  cases hst : fieldStatus (v.slot k).entry with
  | some st =>
    rw [checkFields_refused hst]
    exact (hsame.trans (sameMarks_endSlot v k st)).markedBy _
  | none =>
    by_cases hm : descKind (v.slot k).entry = some .mark
    · have hclean : (v.chan c).clean = (s.chan c).clean ∧ (v.chan c).mark = (s.chan c).mark := by
        rw [hchan, if_pos rfl]
        exact ⟨rfl, rfl⟩
      rw [checkFields_mark hm, hslot.1, hslot.2]
      rw [hslot.1] at hm
      have hmark : ((v.chan c).marked (descMark f.entry)).mark =
          if (s.chan c).clean = true then descMark f.entry else (s.chan c).mark := by
        rw [← hclean.1, ← hclean.2]
        rfl
      intro d
      have hend := sameMarks_endSlot (v.setChan c ((v.chan c).marked (descMark f.entry))) k
        (if (v.chan c).clean = true then .ok else .markBroken) d
      rw [State.setChan_chan] at hend
      by_cases hd : d = c
      · subst hd
        rw [if_pos rfl, hmark] at hend
        cases hc : (s.chan d).clean with
        | true => exact .inr (.inr (.inr ⟨rfl, hc, f, rest, hq, hm, hend.trans (if_pos hc)⟩))
        | false => exact .inl (hend.trans (if_neg (by simp [hc])))
      · rw [if_neg hd] at hend
        exact .inl (hend.trans (hsame d))
    · rw [checkFields_waits hst hm]
      exact hsame.markedBy _

theorem endsIn_slotSchedulerChoice (s : State) : State.EndsIn .slotSchedulerChoice s (execSlotSchedulerChoice s) := by
  unfold execSlotSchedulerChoice
  split
  · exact endsIn_same
  split
  · exact endsIn_concluded (markedBy_scheduleChoice s _ _ _)
  · exact endsIn_same

theorem endsIn_presentation (k : Fin 4) (s : State) : State.EndsIn (.presentation k) s (execPresentation k s) := by
  unfold execPresentation
  simp only
  split
  · exact endsIn_same
  split
  · exact endsIn_same
  split
  · rw [refuseSlot_eq_endSlot]
    exact endsIn_concluded ((sameMarks_endSlot s k _).markedBy _)
  · exact endsIn_concluded ((sameMarks_enterRun s k _).markedBy _)

theorem sameMarks_handOut (s : State) (o : Outbound) : s.SameMarks (s.handOut o) := fun c =>
  congrArg Channel.mark (handOut_chan s o c)

theorem sameMarks_readTaken (s : State) (k : Fin 4) (o : SlotOp) (good : List Byte) (failed : Bool) :
    s.SameMarks (readTaken s k o good failed) := by
  unfold readTaken
  simp only
  split
  · split
    · exact sameMarks_setSlot _ _ _
    · exact (sameMarks_handOut s _).trans (sameMarks_setSlot _ _ _)
  · exact sameMarks_setSlot _ _ _
  · split <;> exact sameMarks_setSlot _ _ _
  · exact sameMarks_setSlot _ _ _

theorem endsIn_readBurst (fs : List Finding) (s : State) : State.EndsIn (.readBurst fs) s (execReadBurst fs s) := by
  unfold execReadBurst
  split
  · exact endsIn_same
  split
  · exact endsIn_same
  split
  · exact endsIn_concluded (State.SameMarks.markedBy
      ((((sameMarks_readTaken (releasePort s) _ _ _ _).after (by rfl)).trans (sameMarks_advanceSlot _ _)).trans
        (sameMarks_reportFindings _ _)) _)
  · exact endsIn_fault _

theorem sameMarks_removeLines (s : State) (lines : List Nat) : s.SameMarks (removeLines s lines) := .of_channels rfl

theorem endsIn_writeBurst (s : State) : State.EndsIn .writeBurst s (execWriteBurst s) := by
  unfold execWriteBurst
  split
  · exact endsIn_same
  split
  · exact endsIn_same
  split
  · exact endsIn_concluded (State.SameMarks.markedBy
      (((sameMarks_advanceSlot _ _).after (by rfl)).trans (sameMarks_removeLines _ _)) _)
  · exact endsIn_fault _

theorem endsIn_readModifyWrite (f : Finding) (s : State) :
    State.EndsIn (.readModifyWrite f) s (execReadModifyWrite f s) := by
  unfold execReadModifyWrite
  split
  · exact endsIn_same
  split
  · exact endsIn_same
  split
  · simp only
    split
    · exact endsIn_concluded (State.SameMarks.markedBy
        (((sameMarks_advanceSlot _ _).after (by rfl)).trans (sameMarks_reportFindings _ _)) _)
    · exact endsIn_concluded (State.SameMarks.markedBy
        (((sameMarks_advanceSlot _ _).after (by rfl)).trans (sameMarks_reportFindings _ _)) _)
  · exact endsIn_fault _

/-! ### The link -/

theorem sameMarks_linkLost (s : State) : s.SameMarks (linkLost s) := by
  unfold linkLost
  exact (sameMarks_failAllTags _).after

theorem sameMarks_linkCleared (s : State) : s.SameMarks (linkCleared s) := by
  unfold linkCleared
  exact (sameMarks_failAllTags _).after

theorem endsIn_linkDown (s : State) : State.EndsIn .linkDown s (execLinkDown s) := by
  refine endsIn_ite fun _ => endsIn_concluded ?_
  have hlost := sameMarks_linkLost s
  generalize linkLost s = u at hlost
  unfold linkDownTaken
  split
  · exact (hlost.trans (sameMarks_startDrain _ _)).markedBy _
  · split
    · exact .of_none (endFlush_chan _ _)
    · exact hlost.markedBy _

theorem endsIn_linkReset (s : State) : State.EndsIn .linkReset s (execLinkReset s) := by
  refine endsIn_ite fun _ => endsIn_concluded ?_
  have hcleared := sameMarks_linkCleared s
  generalize linkCleared s = u at hcleared
  unfold linkResetTaken
  split
  · exact (hcleared.trans (sameMarks_startDrain _ _)).markedBy _
  · split
    · exact State.SameMarks.markedBy hcleared _
    · exact hcleared.markedBy _

theorem endsIn_hostReadData (g : Fin 16) (bs : List Byte) (s : State) :
    State.EndsIn (.hostReadData g bs) s (execHostReadData g bs s) := by
  unfold execHostReadData
  simp only
  split
  · exact endsIn_same
  split
  · refine endsIn_untouched ⟨rfl, rfl, fun _ => rfl, rfl, fun _ => rfl, rfl, rfl, fun j => ?_⟩
    rw [State.setTag_tag]
    split
    · subst_vars
      rfl
    · rfl
  · exact endsIn_concluded (((sameMarks_readDone (s.setTag g Tag.none) _ _).after (by rfl)).markedBy _)

theorem endsIn_readErrorReturn (g : Fin 16) (s : State) :
    State.EndsIn (.readErrorReturn g) s (execReadErrorReturn g s) := by
  unfold execReadErrorReturn
  split
  · exact endsIn_same
  · exact endsIn_concluded (((sameMarks_readFailed (s.setTag g Tag.none) _).after (by rfl)).markedBy _)

theorem endsIn_linkReadTimeout (g : Fin 16) (s : State) :
    State.EndsIn (.linkReadTimeout g) s (execLinkReadTimeout g s) := by
  unfold execLinkReadTimeout
  split
  · exact endsIn_same
  · exact endsIn_concluded (((sameMarks_readFailed _ _).after (by rfl)).markedBy _)

theorem endsIn_quarantineEnd (g : Fin 16) (s : State) :
    State.EndsIn (.quarantineEnd g) s (execQuarantineEnd g s) := by
  unfold execQuarantineEnd
  split
  · exact endsIn_same
  · exact endsIn_linked .of_channels

/-! ### Power -/

/-- The failing of memory initialisation leaves INIT for MEMORY_FAULT (R109): no fetch is asked for in either. -/
theorem quiet_arrayFailed {s : State} (h : s.ctl.op = .init) : s.Quiet (arrayFailed s) where
  fetch := rfl
  adminFetch := rfl
  wantsFetch c :=
    (channelWantsFetch_of_not_active (s := arrayFailed s) OpState.noConfusion c).trans
      (channelWantsFetch_of_not_active (by rw [h]; exact OpState.noConfusion) c).symm
  wantsAdmin :=
    (adminWantsFetch_of_not_active (s := arrayFailed s) OpState.noConfusion).trans
      (adminWantsFetch_of_not_active (by rw [h]; exact OpState.noConfusion)).symm
  wantsTag _ := rfl
  up := rfl
  requests := rfl
  tags _ := rfl

theorem endsIn_memoryInitialisation (success : Bool) (s : State) :
    State.EndsIn (.memoryInitialisation success) s (execMemoryInitialisation success s) := by
  unfold execMemoryInitialisation
  split
  · rename_i h
    split
    · split
      · exact endsIn_concluded (.of_none (settleStandby_chan _))
      · exact endsIn_concluded .of_channels
    · exact endsIn_untouched (quiet_arrayFailed h.2.1)
  · exact endsIn_same

theorem endsIn_pwrWarnAsserted (s : State) : State.EndsIn .pwrWarnAsserted s (execPwrWarnAsserted s) := by
  unfold execPwrWarnAsserted
  simp only
  split
  · exact endsIn_same
  split
  · exact endsIn_untouched .untouched
  split
  · exact endsIn_concluded (((sameMarks_startDrain _ _).after (by rfl)).markedBy _)
  split
  · exact endsIn_concluded (.of_none (settleStandby_chan _))
  · exact endsIn_untouched .untouched

/-! ### Every command -/

/-- How every command ends. -/
theorem exec_ends {i : Instr} {s t : State} (h : exec i s = .next t) : State.Ends i s t := by
  suffices hends : State.EndsIn i s (exec i s) from hends t h
  cases i with
  | powerOn => exact endsIn_ite fun _ => endsIn_next (.started (.inl rfl))
  | warmStart => exact endsIn_ite fun _ => endsIn_next (.started (.inr rfl))
  | memoryInitialisation success => exact endsIn_memoryInitialisation success s
  | coreLogicPowerDown => exact endsIn_ite fun _ => endsIn_untouched .untouched
  | pwrWarnAsserted => exact endsIn_pwrWarnAsserted s
  | pwrWarnDeasserted => exact endsIn_untouched .untouched
  | mainPowerLoss => exact endsIn_ite fun _ => endsIn_untouched .untouched
  | mainPowerReturn => exact endsIn_untouched .untouched
  | backupSupplyFailure => exact endsIn_ite fun _ => endsIn_untouched .untouched
  | linkDown => exact endsIn_linkDown s
  | linkUp => exact endsIn_ite fun _ => endsIn_linked .of_channels
  | linkReset => exact endsIn_linkReset s
  | hostReadData g bs => exact endsIn_hostReadData g bs s
  | readErrorReturn g => exact endsIn_readErrorReturn g s
  | linkReadTimeout g => exact endsIn_linkReadTimeout g s
  | quarantineEnd g => exact endsIn_quarantineEnd g s
  | messageEnable e g => exact endsIn_ite fun _ => endsIn_untouched .untouched
  | enable => exact endsIn_enable s
  | quiesce => exact endsIn_ite fun _ => endsIn_concluded .of_channels
  | functionReset => exact endsIn_functionReset s
  | adminRingWrite f p v => exact endsIn_ite fun _ => endsIn_untouched .untouched
  | notifySqTail r n => exact endsIn_notifySqTail r n s
  | notifyCqHead r n => exact endsIn_notifyCqHead r n s
  | heartbeatWrite v => exact endsIn_ite fun _ => endsIn_still (still_takeBeat s _)
  | eventsWrite v => exact endsIn_ite fun _ => endsIn_untouched .untouched
  | registerWriteIgnored o w v => exact endsIn_same
  | definePartition =>
    exact (endsIn_taken (fun s r => sameMarks_withPartition (sameMarks_definePart s r)) s :
      State.EndsIn _ s (execDefinePartition s))
  | freezePartition =>
    exact (endsIn_taken (fun s _ => sameMarks_withPartition (sameMarks_freezePart s)) s :
      State.EndsIn _ s (execFreezePartition s))
  | releasePartition =>
    exact (endsIn_taken (fun s _ => sameMarks_withPartition (sameMarks_releasePart s)) s :
      State.EndsIn _ s (execReleasePartition s))
  | clearTorn =>
    exact (endsIn_taken (fun s _ => sameMarks_withPartition (sameMarks_clearTornPart s)) s :
      State.EndsIn _ s (execClearTorn s))
  | getPartitions => exact (endsIn_taken sameMarks_getPartitions s : State.EndsIn _ s (execGetPartitions s))
  | createChannel =>
    exact (endsIn_takeCommand (fun h => .linked _ h rfl) markedBy_createChannel s :
      State.EndsIn _ s (execCreateChannel s))
  | deleteChannel =>
    exact (endsIn_takenConcluded (fun s _ => sameMarks_withChannel (sameMarks_deleteChan s)) s :
      State.EndsIn _ s (execDeleteChannel s))
  | pauseChannel =>
    exact (endsIn_taken (fun s _ => sameMarks_withChannel (sameMarks_pauseChan s)) s :
      State.EndsIn _ s (execPauseChannel s))
  | resumeChannel =>
    exact (endsIn_taken (fun s _ => sameMarks_withChannel (sameMarks_resumeChan s)) s :
      State.EndsIn _ s (execResumeChannel s))
  | createCq => exact (endsIn_taken sameMarks_createCq s : State.EndsIn _ s (execCreateCq s))
  | deleteCq => exact (endsIn_taken sameMarks_deleteCq s : State.EndsIn _ s (execDeleteCq s))
  | setRefresh => exact (endsIn_taken sameMarks_setRefresh s : State.EndsIn _ s (execSetRefresh s))
  | setScrub => exact (endsIn_taken sameMarks_setScrub s : State.EndsIn _ s (execSetScrub s))
  | getHealth => exact (endsIn_taken sameMarks_getHealth s : State.EndsIn _ s (execGetHealth s))
  | clearErrors => exact (endsIn_taken sameMarks_clearErrors s : State.EndsIn _ s (execClearErrors s))
  | setMonitor => exact (endsIn_taken sameMarks_setMonitor s : State.EndsIn _ s (execSetMonitor s))
  | setLinkTimeout => exact (endsIn_taken sameMarks_setLinkTimeout s : State.EndsIn _ s (execSetLinkTimeout s))
  | setDrain => exact (endsIn_taken sameMarks_setDrain s : State.EndsIn _ s (execSetDrain s))
  | enterRetention =>
    exact (endsIn_takenConcluded (body := fun s _ => .waits (startDrain s .hostRequest))
      (fun s _ => sameMarks_startDrain s _) s : State.EndsIn _ s (execEnterRetention s))
  | getRetentionRecord =>
    exact (endsIn_taken sameMarks_getRetentionRecord s :
      State.EndsIn _ s (execGetRetentionRecord s))
  | claimRetained => exact (endsIn_taken sameMarks_claimRetained s : State.EndsIn _ s (execClaimRetained s))
  | discardRetained => exact (endsIn_taken sameMarks_discardRetained s : State.EndsIn _ s (execDiscardRetained s))
  | unknownCommand =>
    exact (endsIn_taken (fun s _ => sameMarks_refused s _) s :
      State.EndsIn _ s (execUnknownCommand s))
  | slotSchedulerChoice => exact endsIn_slotSchedulerChoice s
  | presentation k => exact endsIn_presentation k s
  | readBurst fs => exact endsIn_readBurst fs s
  | writeBurst => exact endsIn_writeBurst s
  | readModifyWrite f => exact endsIn_readModifyWrite f s
  | refresh => exact endsIn_ite fun _ => endsIn_still (State.Still.trans ⟨.untouched, by rfl⟩ (still_settlePort _))
  | scrubLine fs => exact endsIn_scrubLine fs s
  | selfRefreshEntry => exact endsIn_selfRefreshEntry s
  | selfRefreshExit => exact endsIn_selfRefreshExit s
  | intervalExpiry => exact endsIn_intervalExpiry s
  | scrubTick => exact endsIn_scrubTick s
  | delayTimerExpiry r => exact endsIn_delayTimerExpiry r s
  | periodTimerExpiry => exact endsIn_periodTimerExpiry s
  | graceTimerExpiry => exact endsIn_graceTimerExpiry s
  | drainDeadlineExpiry => exact endsIn_drainDeadlineExpiry s
  | completionWrite r => exact endsIn_completionWrite r s
  | completionDiscard src => exact endsIn_completionDiscard src s
  | deleteConversion c => exact endsIn_deleteConversion c s

/-- Settles O14: a command ends by one of five ends, and none but the two named ones gives a mark a new value. -/
theorem markChangesOnlyByMark : Obligations.MarkChangesOnlyByMark := by
  intro i s t c h
  cases exec_ends h with
  | quiet hq hc => exact State.MarkedBy.of_channels (i := i) hc c
  | linked u hu ht => exact (ht ▸ hu.fades (.of_channels (settleLink_channels u)) : State.MarkedBy i s t) c
  | concluded u hu ht => exact (ht ▸ hu.fades (fades_conclude u) : State.MarkedBy i s t) c
  | started ht =>
    refine .inr (.inl ?_)
    obtain rfl | rfl := ht <;> exact get_replicate _ c
  | entered hh ht =>
    subst ht
    exact .inl (congrArg Channel.mark (raise_chan _ _ c))

end Sys2Proof.Machine
end

section
/-! SUPPORT. Link tags (R28, R57, R131, R169): when each requester asks, the order of grants, what one grant issues, and
that no request is left beside a FREE tag. -/

-- One theorem at a time, as in the tests above: fewer threads than the memory limit allows.
set_option Elab.async false

namespace Sys2Proof.Machine

/-! ### When a tag is asked for (R28, R57, R131) -/

theorem slotWantsTag_iff {sl : Slot} :
    slotWantsTag sl = true ↔
      sl.state = .run ∧ descKind sl.entry = some .writeIn ∧ sl.reads + sl.inHand.length < 2 ∧
        sl.nextPiece < descLength sl.entry := by
  simp only [slotWantsTag, Bool.and_eq_true, beq_iff_eq, decide_eq_true_eq, and_assoc]

theorem adminWantsFetch_iff {s : State} :
    adminWantsFetch s = true ↔
      s.ctl.op = .active ∧ s.admin.processor ≠ .halted ∧
        (s.admin.tail + s.admin.size - s.admin.head) % s.admin.size ≠ 0 ∧ s.admin.queue.length < 4 := by
  simp only [adminWantsFetch, pendingCount, Bool.and_eq_true, beq_iff_eq, bne_iff_ne, decide_eq_true_eq, Nat.pos_iff_ne_zero,
    and_assoc]

/-- A record that holds no read takes or loses its request; one that holds a read stays (R28). -/
theorem refreshed_eq {w : Bool} {p : Prop} [Decidable p] (h : w = true ↔ p) (f : FetchRecord) :
    f.refreshed w =
      if f = .empty ∨ f = .requesting then (if p then .requesting else .empty) else f := by
  have hw : (if w = true then FetchRecord.requesting else .empty) = if p then .requesting else .empty :=
    if_congr h rfl rfl
  cases f with
  | empty | requesting => simpa [FetchRecord.refreshed] using hw
  | inFlight n | orphaned n => simp [FetchRecord.refreshed]

/-! ### The order of grants (R169) -/

/-- The lowest-numbered FREE tag. -/
theorem freeTag_eq {s : State} {g : Fin 16} (hg : (s.tag g).state = .free)
    (hlow : ∀ f, f < g → (s.tag f).state ≠ .free) : freeTag s = some g := by
  rw [freeTag, allTags, List.find?_eq_some_iff_getElem]
  refine ⟨by simpa using hg, g.val, by simp, by simp, fun j hj => ?_⟩
  have := hlow ⟨j, hj.trans g.isLt⟩ hj
  simpa using this

theorem freeTag_eq_none {s : State} (h : ∀ g, (s.tag g).state ≠ .free) : freeTag s = none :=
  List.find?_eq_none.mpr fun g _ => by simpa using h g

/-- A slot whose request stands is served before every other requester, in the order after the slot pointer. -/
theorem grantHolder_nextSlot {s : State} {k : Fin 4} (hk : s.link.slotRequests.get k = true)
    (hleast : ∀ j, s.link.slotRequests.get j = true →
      stepsAfter s.link.slotPointer k ≤ stepsAfter s.link.slotPointer j) : grantHolder s = some (.slot k) := by
  have hsearch : searchAfter s.link.slotPointer (fun j => s.link.slotRequests.get j) = some k :=
    searchAfter_of_least hk hleast
  simp only [grantHolder, hsearch]

/-- With no slot and no admin fetch asking, channels are served in the order after the channel pointer. -/
theorem grantHolder_nextChannel {s : State} {c : Fin 16} (hs : ∀ k, s.link.slotRequests.get k = false)
    (ha : s.adminFetch ≠ .requesting) (hc : s.fetchOf c = .requesting)
    (hleast : ∀ d, s.fetchOf d = .requesting →
      stepsAfter s.link.channelPointer c ≤ stepsAfter s.link.channelPointer d) :
    grantHolder s = some (.channel c) := by
  have hsearch : searchAfter s.link.channelPointer (fun d => s.fetchOf d == .requesting) = some c :=
    searchAfter_of_least (by simpa using hc) fun d hd => hleast d (by simpa using hd)
  rw [grantHolder_of_unasked hs, if_neg ha, hsearch, Option.map_some]

/-! ### No request beside a FREE tag (R169) -/

/-- With no read, no request and nobody who would ask, a link that is DOWN is settled. -/
theorem settled_of_blank {s : State} (ho : s.ctl.op ≠ .active) (hf : ∀ c, s.fetchOf c = .empty)
    (ha : s.adminFetch = .empty) (hs : ∀ k, s.slot k = Slot.none) (hr : ∀ k, s.link.slotRequests.get k = false)
    (hu : s.link.up = false) : s.Settled where
  left :=
    { fetch := fun c => by
        rw [hf, channelWantsFetch_of_not_active ho]
        rfl
      admin := by
        rw [ha, adminWantsFetch_of_not_active ho]
        rfl
      requests := fun k => by
        rw [hs, hr]
        rfl }
  right := .inl hu

theorem poweredOn_settled (s : State) : (poweredOn s).Settled :=
  settled_of_blank OpState.noConfusion (fun _ => get_replicate _ _) rfl (fun _ => get_replicate _ _)
    (fun _ => get_replicate _ _) rfl

theorem warmStarted_settled (s : State) : (warmStarted s).Settled :=
  settled_of_blank OpState.noConfusion (fun _ => get_replicate _ _) rfl (fun _ => get_replicate _ _)
    (fun _ => get_replicate _ _) rfl

theorem reset_settled : State.reset.Settled :=
  settled_of_blank OpState.noConfusion (fun _ => get_replicate _ _) rfl (fun _ => get_replicate _ _)
    (fun _ => get_replicate _ _) rfl

/-- Self-refresh entry completes in DRAINING and leaves RETAINED (R110, R160): no fetch is asked for in either. -/
theorem quiet_entryComplete {s : State} (h : s.ctl.op = .draining) : s.Quiet (entryComplete s) := by
  have hd : s.ctl.op ≠ .active := by
    rw [h]
    exact OpState.noConfusion
  refine State.Quiet.trans (t := { releasePort s with
    memState := .selfRefresh, admin := Admin.none
    ctl := { s.ctl with op := .retained, phase := .none, record := finalRecord s, working := .invalid } })
    ⟨rfl, rfl, fun c => ?_, ?_, fun _ => rfl, rfl, rfl, fun _ => rfl⟩ (still_raise _ _).1
  · rw [channelWantsFetch_of_not_active hd]
    exact channelWantsFetch_of_not_active OpState.noConfusion c
  · rw [adminWantsFetch_of_not_active hd]
    exact adminWantsFetch_of_not_active OpState.noConfusion

theorem exec_settled {i : Instr} {s t : State} (hl : s.RetainedLaw) (hs : s.Settled) (h : exec i s = .next t) :
    t.Settled := by
  cases exec_ends h with
  | quiet hq _ => exact quiet_settled hq hs
  | linked u _ ht => exact ht ▸ settleLink_settled u
  | concluded u _ ht => exact ht ▸ conclude_linkSettled u
  | started ht =>
    obtain rfl | rfl := ht
    · exact poweredOn_settled s
    · exact warmStarted_settled s
  | entered hh ht =>
    obtain ⟨-, -, -, hentry, -, -⟩ := hl
    exact ht ▸ quiet_settled (quiet_entryComplete (hentry hh).1.1) hs

theorem quiet_idleTick (s : State) : s.Quiet s.idleTick := by
  unfold State.idleTick
  split
  · refine (still_elapse s Config.tenthsPerMicro).1.trans ?_
    have hsend : ∀ l : Link, l.sendAll.up = l.up ∧ l.sendAll.slotRequests = l.slotRequests ∧ l.sendAll.tags = l.tags :=
      fun l => by
        unfold Link.sendAll
        split <;> exact ⟨rfl, rfl, rfl⟩
    obtain ⟨hu, hr, ht⟩ := hsend (s.elapse Config.tenthsPerMicro).link
    exact .untouched (hu := hu) (hr := hr) (ht := ht)
  · exact .refl s

/-- No request is left beside a FREE tag by a step (R169). -/
theorem step_settled {s t : State} (hl : s.RetainedLaw) (hs : s.Settled) (h : step s = .next t) : t.Settled := by
  unfold step at h
  split at h
  · cases h
    exact quiet_settled (quiet_idleTick s) hs
  · rename_i i rest _
    exact exec_settled (s := { s with pending := rest }) hl (quiet_settled .untouched hs) h

/-- Settles O24: requests by their conditions, grants by `grantHolder` and `grantTo`, and settled links by how commands
end. -/
theorem tagGrantOrder : Obligations.TagGrantOrder := by
  refine ⟨fun s => ?_, settled_iff.mp reset_settled, fun s t hl hs h =>
    settled_iff.mp (step_settled hl (settled_iff.mpr hs) h)⟩
  intro asks wants waiting placed
  refine ⟨fun k => ?_, fun c => ?_, ?_, rfl, rfl, fun n => ⟨fun g h hu hg hlow hh => ?_, fun hno => ?_⟩, rfl,
    fun k hk hleast => grantHolder_nextSlot hk hleast, fun hs => ⟨fun ha => ?_, fun ha => ⟨fun c hc hleast => ?_, fun hc => ?_⟩⟩,
    fun g k => ?_, fun g c => rfl, fun g => rfl⟩
  · intro sl
    rw [refreshRequests_requests]
    exact slotWantsTag_iff
  · intro x wanted
    rw [refreshRequests_fetchOf]
    exact refreshed_eq channelWantsFetch_iff _
  · exact refreshed_eq adminWantsFetch_iff _
  · exact grantTags_succ hu (freeTag_eq hg hlow) hh n
  · exact grantTags_of_noGrant (hno.imp_right (Or.imp_left freeTag_eq_none)) _
  · have hnone : ∀ k, s.link.slotRequests.get k = false := fun k => Bool.eq_false_of_not_eq_true (hs k)
    rw [grantHolder_of_unasked hnone, if_pos ha]
  · exact grantHolder_nextChannel (fun k => Bool.eq_false_of_not_eq_true (hs k)) ha hc hleast
  · exact grantHolder_eq_none.mpr ⟨fun k => Bool.eq_false_of_not_eq_true (hs k), ha, hc⟩
  · intro sl n a u
    have hu : u.slot k = { sl with reads := sl.reads + 1, nextPiece := sl.nextPiece + n } := setSlot_slot _ _ _
    rw [refreshRequests_requests, hu]
    rfl

end Sys2Proof.Machine
end

section
/-! SUPPORT. Reads that fail together (R65, R133, R173, R174), the start of a drain and the passages of a drain: what none
of them undoes, and what a link that takes no message keeps. -/

-- One theorem at a time, as in the tests above: fewer threads than the memory limit allows.
set_option Elab.async false

namespace Sys2Proof.Machine

/-! ### Messages the link does not take (R167) -/

/-- The link takes no message: it is DOWN, or the message enable is clear. -/
def Link.mute (l : Link) : Prop := l.up = false ∨ l.messageEnable = false

theorem handOut_mute {s : State} (h : s.link.mute) (v : Nat) : s.handOut (.message v) = s := by
  unfold State.handOut
  refine if_neg ?_
  obtain h | h := h <;> simp [h]

theorem raise_mute {s : State} (h : s.link.mute) (c : Cause) : (s.raise c).link = s.link := by
  unfold State.raise
  split
  · rfl
  · rw [handOut_mute (s := { s with events := s.events.set c }) h]

theorem signalRest_mute {s : State} (h : s.link.mute) (r : Fin 9) : (signalRest s r).link = s.link := by
  unfold signalRest sendVector
  rw [handOut_mute h]
  split <;> rfl

theorem signalAll_mute {s : State} (h : s.link.mute) : (signalAll s).link = s.link := by
  have hfold : ∀ (l : List (Fin 9)) (u : State), u.link = s.link → (l.foldl signalRest u).link = s.link := by
    intro l
    induction l with
    | nil => exact fun u hu => hu
    | cons r l ih => exact fun u hu => ih _ ((signalRest_mute (by rw [hu]; exact h) r).trans hu)
  exact hfold allRings s rfl

/-! ### Causes (R94, R96) -/

theorem events_set_has (e : Events) (c : Cause) : (e.set c).has c = true := by
  cases c <;> simp [Events.has, Events.set, Cause.bit]

theorem events_has_set {e : Events} {d : Cause} (c : Cause) (h : e.has d = true) : (e.set c).has d = true := by
  simp only [Events.has, Events.set, BitVec.getLsbD_or, Bool.or_eq_true] at h ⊢
  exact .inl h

theorem raise_sets (s : State) (c : Cause) : (s.raise c).events.has c = true := by
  rw [raise_events]
  split
  · assumption
  · exact events_set_has _ c

theorem raise_keeps {s : State} {d : Cause} (c : Cause) (h : s.events.has d = true) :
    (s.raise c).events.has d = true := by
  rw [raise_events]
  split
  · exact h
  · exact events_has_set c h

theorem raise_detail (s : State) (c : Cause) : (s.raise c).events.detail = s.events.detail := by
  rw [raise_events]
  split <;> rfl

/-! ### What is not undone -/

/-- Nothing but slots and channels apart, what failing reads, the start of a drain and its passages keep: empty fetch
records, causes set, FREE tags, and the link but for its tags where it takes no message. -/
structure State.Falls (s t : State) : Prop where
  fetch     : ∀ c, s.fetchOf c = .empty → t.fetchOf c = .empty
  admin     : s.adminFetch = .empty → t.adminFetch = .empty
  events    : ∀ c, s.events.has c = true → t.events.has c = true
  detail    : t.events.detail = s.events.detail
  tags      : ∀ g, s.tag g = Tag.none → t.tag g = Tag.none
  link      : s.link.mute → t.link = { s.link with tags := t.link.tags }
  mem       : t.mem = s.mem
  record    : t.ctl.record = s.ctl.record
  adminRing : t.adminRing = s.adminRing
  beat      : t.monitor.beat = s.monitor.beat ∧ t.monitor.last = s.monitor.last

namespace State.Falls

theorem refl (s : State) : s.Falls s :=
  ⟨fun _ h => h, fun h => h, fun _ h => h, rfl, fun _ h => h, fun _ => rfl, rfl, rfl, rfl, rfl, rfl⟩

theorem trans {s t u : State} (h : s.Falls t) (h' : t.Falls u) : s.Falls u where
  fetch c e := h'.fetch c (h.fetch c e)
  admin e := h'.admin (h.admin e)
  events c e := h'.events c (h.events c e)
  detail := h'.detail.trans h.detail
  tags g e := h'.tags g (h.tags g e)
  link e := by
    have ht := h.link e
    have hu := h'.link (by rw [ht]; exact e)
    rw [hu, ht]
  mem := h'.mem.trans h.mem
  record := h'.record.trans h.record
  adminRing := h'.adminRing.trans h.adminRing
  beat := ⟨h'.beat.1.trans h.beat.1, h'.beat.2.trans h.beat.2⟩

/-- Nothing that `Falls` speaks of has changed; for an update of other fields each equation holds by computation. -/
theorem untouched {s t : State} (hf : t.fetch = s.fetch := by rfl) (ha : t.adminFetch = s.adminFetch := by rfl)
    (he : t.events = s.events := by rfl) (hl : t.link = s.link := by rfl) (hm : t.mem = s.mem := by rfl)
    (hr : t.ctl.record = s.ctl.record := by rfl) (hg : t.adminRing = s.adminRing := by rfl)
    (hb : t.monitor.beat = s.monitor.beat ∧ t.monitor.last = s.monitor.last := by exact ⟨rfl, rfl⟩) : s.Falls t where
  fetch c h := by rwa [State.fetchOf, hf]
  admin h := by rwa [ha]
  events c h := by rwa [he]
  detail := by rw [he]
  tags g h := by rwa [State.tag, hl]
  link _ := by rw [hl]
  mem := hm
  record := hr
  adminRing := hg
  beat := hb

theorem foldl {α : Type} {f : State → α → State} (hf : ∀ (s : State) (a : α), s.Falls (f s a)) (l : List α)
    (s : State) : s.Falls (l.foldl f s) := by
  induction l generalizing s with
  | nil => exact .refl s
  | cons a l ih => exact (hf s a).trans (ih _)

end State.Falls

theorem falls_raise (s : State) (c : Cause) : s.Falls (s.raise c) := by
  have hd := raise_detail s c
  have hk : ∀ d, s.events.has d = true → (s.raise c).events.has d = true := fun d => raise_keeps c
  have hm := fun h : s.link.mute => raise_mute h c
  obtain ⟨e, q, h⟩ := raise_eq s c
  rw [h] at hd hk hm ⊢
  exact ⟨fun _ h => h, fun h => h, hk, hd, fun _ h => h, fun e => by rw [hm e], rfl, rfl, rfl, rfl, rfl⟩

theorem falls_endSlot (s : State) (k : Fin 4) (st : Status) : s.Falls (endSlot s k st) := by
  obtain ⟨ps, a, cs, w, ss, h⟩ := endSlot_eq s k st
  rw [h]
  exact .untouched

theorem falls_finishSlot (s : State) (k : Fin 4) : s.Falls (finishSlot s k) := by
  obtain ⟨ps, a, cs, w, ss, h⟩ := finishSlot_eq s k
  rw [h]
  exact .untouched

theorem orphanReads_tag (s : State) (k : Fin 4) (g : Fin 16) :
    (orphanReads s k).tag g =
      if (s.tag g).state = .waiting ∧ (s.tag g).holder = .slot k then { s.tag g with orphan := true } else s.tag g :=
  tabulate_get _ g

theorem orphanReads_tag_of_ne {s : State} {k : Fin 4} {g : Fin 16}
    (h : ¬((s.tag g).state = .waiting ∧ (s.tag g).holder = .slot k)) : (orphanReads s k).tag g = s.tag g := by
  rw [orphanReads_tag, if_neg h]

theorem falls_orphanReads (s : State) (k : Fin 4) : s.Falls (orphanReads s k) where
  fetch _ h := h
  admin h := h
  events _ h := h
  detail := rfl
  tags g h := by
    rw [orphanReads_tag_of_ne, h]
    rw [h]
    exact fun e => TagState.noConfusion e.1
  link _ := rfl
  mem := rfl
  record := rfl
  adminRing := rfl
  beat := ⟨rfl, rfl⟩

theorem falls_leaveRun (s : State) (k : Fin 4) (sl : Slot) : s.Falls (leaveRun s k sl) :=
  (falls_orphanReads s k).trans (State.Falls.trans .untouched (falls_finishSlot _ k))

theorem falls_stopSlot (s : State) (k : Fin 4) (q : StopRequest) : s.Falls (stopSlot s k q) := by
  unfold stopSlot
  simp only
  split
  · exact .refl s
  · exact State.Falls.trans .untouched (falls_endSlot _ k _)
  · exact falls_leaveRun s k _
  · exact .untouched

theorem falls_stopAllSlots (s : State) (q : StopRequest) : s.Falls (stopAllSlots s q) :=
  .foldl (fun u k => falls_stopSlot u k q) allSlots s

theorem falls_startDrain (s : State) (reason : DrainReason) : s.Falls (startDrain s reason) := by
  unfold startDrain
  refine State.Falls.trans ?_ (falls_stopAllSlots _ _)
  refine .untouched (hb := ?_)
  unfold Monitor.disarmed
  split <;> exact ⟨rfl, rfl⟩

theorem FetchRecord.orphan_empty {f : FetchRecord} (h : f = .empty) : f.orphan = .empty := by
  rw [h]
  rfl

theorem falls_signalAll (s : State) : s.Falls (signalAll s) := by
  have hmute := fun h : s.link.mute => signalAll_mute h
  obtain ⟨q, rs, h⟩ := signalAll_eq s
  rw [h] at hmute ⊢
  exact ⟨fun _ h => h, fun h => h, fun _ h => h, rfl, fun _ h => h, fun e => by rw [hmute e], rfl, rfl, rfl, rfl, rfl⟩

theorem falls_beginSettle (s : State) : s.Falls (beginSettle s) := by
  refine (falls_signalAll s).trans ?_
  unfold beginSettle
  generalize signalAll s = v
  exact ⟨fun c h => (tabulate_get _ c).trans (FetchRecord.orphan_empty h), fun h => FetchRecord.orphan_empty h,
    fun _ h => h, rfl, fun _ h => h, fun _ => rfl, rfl, rfl, rfl, rfl, rfl⟩

theorem falls_endFlush (s : State) (o : FlushOutcome) : s.Falls (endFlush s o) := by
  unfold endFlush
  refine State.Falls.trans ?_ (falls_beginSettle _)
  exact .untouched

theorem falls_stopStep (s : State) : s.Falls (stopStep s) := by
  by_cases h : s.ctl.op = .draining ∧ s.ctl.phase = .stop
  · have hall : s.Falls s.allStopped := .untouched
    rw [stopStep_on h.1 h.2]
    split
    · unfold endStop
      split
      · split
        · exact hall.trans (falls_endFlush _ _)
        · exact hall.trans .untouched
      · exact hall.trans (falls_beginSettle _)
    · exact hall
  · rw [stopStep_off (not_and_or.mp h)]
    exact .refl s

theorem falls_flushStep (s : State) : s.Falls (flushStep s) := by
  unfold flushStep
  split
  · exact falls_endFlush s _
  · exact .refl s

/-- Outside ACTIVE and QUIESCING the passages are those of a drain. -/
theorem settlePhases_notAtWork {s : State} (h : s.atWork = false) : settlePhases s = flushStep (stopStep s) := by
  have hdel : endDeletion s = s := by
    unfold endDeletion
    split
    · rfl
    · exact if_neg fun e => by simp [h] at e
  have hq : s.ctl.op ≠ .quiescing := fun e => by simp [State.atWork, e] at h
  have hquiesce : quiesceStep s = s := if_neg hq
  rw [settlePhases, hdel, hquiesce]

theorem falls_settlePhases {s : State} (h : s.atWork = false) : s.Falls (settlePhases s) := by
  rw [settlePhases_notAtWork h]
  exact (falls_stopStep s).trans (falls_flushStep _)

/-! ### Failing reads -/

theorem falls_channelFetchFailed (s : State) (c : Fin 16) : s.Falls (channelFetchFailed s c) := by
  have hset : ∀ u : State, u.Falls (u.setFetch c .empty) := fun u =>
    { fetch := fun d h => by
        rw [State.setFetch_fetchOf]
        split
        · rfl
        · exact h
      admin := fun h => h, events := fun _ h => h, detail := rfl, tags := fun _ h => h, link := fun _ => rfl, mem := rfl
      record := rfl, adminRing := rfl, beat := ⟨rfl, rfl⟩ }
  unfold channelFetchFailed
  split
  · split
    · refine State.Falls.trans ?_ (falls_raise _ _)
      refine State.Falls.trans ?_ (hset _)
      exact .untouched
    · exact hset s
  · exact hset s
  · exact .refl s
  · exact .refl s

theorem falls_adminFetchFailed (s : State) : s.Falls (adminFetchFailed s) := by
  have hset : ∀ (u : State) (a : Admin), u.Falls { u with adminFetch := .empty, admin := a } := fun u a =>
    ⟨fun _ h => h, fun _ => rfl, fun _ h => h, rfl, fun _ h => h, fun _ => rfl, rfl, rfl, rfl, rfl, rfl⟩
  unfold adminFetchFailed
  split
  · split
    · exact (hset s s.admin.failed).trans (falls_raise _ _)
    · exact hset s s.admin
  · exact hset s s.admin
  · exact .refl s
  · exact .refl s

theorem falls_readFailed (s : State) (x : Tag) : s.Falls (readFailed s x) := by
  unfold readFailed
  split
  · exact .refl s
  · split
    · exact .refl s
    · unfold slotReadFailed
      simp only
      split
      · exact falls_leaveRun s _ _
      · exact .refl s
  · exact falls_adminFetchFailed s
  · exact falls_channelFetchFailed s _

theorem falls_setTag_none (s : State) (g : Fin 16) : s.Falls (s.setTag g Tag.none) where
  fetch _ h := h
  admin h := h
  events _ h := h
  detail := rfl
  tags f h := by
    rw [State.setTag_tag]
    split
    · rfl
    · exact h
  link _ := rfl
  mem := rfl
  record := rfl
  adminRing := rfl
  beat := ⟨rfl, rfl⟩

theorem falls_failTag (s : State) (g : Fin 16) : s.Falls (failTag s g) := by
  unfold failTag
  simp only
  split
  · exact (falls_setTag_none s g).trans (falls_readFailed _ _)
  · exact falls_setTag_none s g

theorem falls_failAllTags (s : State) : s.Falls (failAllTags s) := .foldl falls_failTag allTags s

/-! ### One element of a list reached -/

/-- A fold comes from `P` to `Q` at one element of its list, where other elements keep `P` until then and all keep `Q`. -/
theorem foldl_reaches {α β : Type} [DecidableEq α] {f : β → α → β} {P Q : β → Prop} {a : α} {l : List α} (ha : a ∈ l)
    (hP : ∀ b x, x ≠ a → P b → P (f b x)) (hPQ : ∀ b, P b → Q (f b a)) (hQ : ∀ b x, Q b → Q (f b x)) {b : β}
    (hb : P b) : Q (l.foldl f b) := by
  obtain ⟨l1, l2, rfl, hl1⟩ := List.eq_append_cons_of_mem ha
  rw [List.foldl_append, List.foldl_cons]
  have h1 : P (l1.foldl f b) := List.foldlRecOn l1 f hb fun u hu x hx => hP u x (ne_of_mem_of_not_mem hx hl1) hu
  exact List.foldlRecOn l2 f (hPQ _ h1) fun u hu x _ => hQ u x hu

/-- Every tag is FREE after all reads have failed (R173, R174). -/
theorem failAllTags_tag (s : State) (g : Fin 16) : (failAllTags s).tag g = Tag.none := by
  refine foldl_reaches (P := fun _ => True) (Q := fun u => u.tag g = Tag.none) (f := failTag) (List.mem_finRange g)
    (fun _ _ _ _ => trivial) (fun u _ => ?_) (fun u h hu => (falls_failTag u h).tags g hu) trivial
  have hset : (u.setTag g Tag.none).tag g = Tag.none := State.setTag_tag_self u g _
  unfold failTag
  simp only
  split
  · exact (falls_readFailed _ _).tags g hset
  · exact hset

end Sys2Proof.Machine
end

section
/-! SUPPORT. Slots that lose a read (R65, R73, R74) and the channels beside them (R36, R38, R157): what becomes of a slot's
descriptor, and that a channel's completions and its halt stay. -/

-- One theorem at a time, as in the tests above: fewer threads than the memory limit allows.
set_option Elab.async false

namespace Sys2Proof.Machine

/-! ### Channels: completions and halts stay -/

/-- The channel's state stays, or it is HALTED; every held completion stays. -/
def Channel.GoesTo (x y : Channel) : Prop := (y.state = x.state ∨ y.state = .halted) ∧ ∀ f ∈ x.held, f ∈ y.held

theorem Channel.GoesTo.refl (x : Channel) : x.GoesTo x := ⟨.inl rfl, fun _ h => h⟩

theorem Channel.GoesTo.trans {x y z : Channel} (h : x.GoesTo y) (h' : y.GoesTo z) : x.GoesTo z :=
  ⟨h'.1.elim (fun e => h.1.imp e.trans e.trans) .inr, fun f hf => h'.2 f (h.2 f hf)⟩

def State.Goes (s t : State) : Prop := ∀ c, (s.chan c).GoesTo (t.chan c)

theorem State.Goes.refl (s : State) : s.Goes s := fun _ => .refl _

theorem State.Goes.trans {s t u : State} (h : s.Goes t) (h' : t.Goes u) : s.Goes u := fun c => (h c).trans (h' c)

theorem State.Goes.of_channels {s t : State} (h : t.channels = s.channels := by rfl) : s.Goes t := fun c => by
  rw [show t.chan c = s.chan c from congrArg (fun v => Vector.get v c) h]
  exact .refl _

theorem State.Goes.of_set {s t : State} {c : Fin 16} {x : Channel} (ht : t.channels = s.channels.set c x)
    (hx : (s.chan c).GoesTo x) : s.Goes t := fun d => by
  have h : t.chan d = if d = c then x else s.chan d := (congrArg (fun v => Vector.get v d) ht).trans (get_set _ _ _ _)
  rw [h]
  split
  · subst_vars; exact hx
  · exact .refl _

theorem State.Goes.foldl {α : Type} {f : State → α → State} (hf : ∀ (s : State) (a : α), s.Goes (f s a)) (l : List α)
    (s : State) : s.Goes (l.foldl f s) := by
  induction l generalizing s with
  | nil => exact .refl s
  | cons a l ih => exact (hf s a).trans (ih _)

theorem endedIn_goes (x : Channel) (sl : Slot) (st : Status) : x.GoesTo (x.endedIn sl st) := by
  refine ⟨?_, fun f hf => List.mem_append_left _ hf⟩
  unfold Channel.endedIn Channel.ended
  simp only
  split
  · exact .inr rfl
  · exact .inl rfl

theorem goes_endSlot (s : State) (k : Fin 4) (st : Status) : s.Goes (endSlot s k st) := fun d => by
  rw [endSlot_chan]
  split
  · rename_i h
    rw [h.2]
    exact endedIn_goes _ _ _
  · exact .refl _

theorem stopped_goes (c : Fin 16) (x : Channel) : x.GoesTo (x.stopped c) := by
  refine ⟨?_, fun f hf => hf⟩
  unfold Channel.stopped Channel.terminated
  simp only
  split
  · exact .inr rfl
  · exact .inl rfl

theorem goes_allStopped (s : State) : s.Goes s.allStopped := fun c => by
  have h : s.allStopped.chan c = (s.chan c).stopped c := tabulate_get _ c
  rw [h]
  exact stopped_goes c _

/-! ### A slot that leaves RUN (R65, R68, R73) -/

/-- What a slot keeps while it moves to its end. -/
structure Slot.Holds (x y : Slot) : Prop where
  entry : y.entry = x.entry
  chan  : y.chan = x.chan
  done  : y.bytesDone = x.bytesDone
  cause : y.cause = x.cause
  stop  : y.stop = x.stop

theorem trimDeliveries_keeps (sl : Slot) : sl.Holds (trimDeliveries sl) := by
  unfold trimDeliveries
  split
  · exact ⟨rfl, rfl, rfl, rfl, rfl⟩
  all_goals split <;> exact ⟨rfl, rfl, rfl, rfl, rfl⟩

theorem beginWrite_keeps (s : State) (sl : Slot) : sl.Holds (beginWrite s sl) := by
  unfold beginWrite
  split
  · exact ⟨rfl, rfl, rfl, rfl, rfl⟩
  · split <;> exact ⟨rfl, rfl, rfl, rfl, rfl⟩

/-- A slot that leaves RUN stays in ENDING for deliveries, or makes its end happening, and keeps what it holds. -/
theorem leaveRun_cases (s : State) (k : Fin 4) (sl : Slot) :
    ∃ y, sl.Holds y ∧ y.state = .ending ∧
      (leaveRun s k sl = (orphanReads s k).setSlot k y ∨
        leaveRun s k sl = endSlot ((orphanReads s k).setSlot k y) k sl.status) := by
  obtain ⟨hentry, hchan, hdone, hcause, hstop⟩ := trimDeliveries_keeps sl
  let y : Slot := { trimDeliveries sl with state := .ending }
  have hy : sl.Holds y := ⟨hentry, hchan, hdone, hcause, hstop⟩
  have hslot : ((orphanReads s k).setSlot k y).slot k = y := setSlot_slot _ k y
  have hstatus : y.status = sl.status := by
    unfold Slot.status
    rw [hy.cause]
  show ∃ z, sl.Holds z ∧ z.state = .ending ∧
    (finishSlot ((orphanReads s k).setSlot k y) k = _ ∨ finishSlot ((orphanReads s k).setSlot k y) k = _)
  unfold finishSlot
  simp only [hslot]
  split
  · exact ⟨y, hy, rfl, .inl rfl⟩
  split
  · exact ⟨{ y with port := .waiting }, ⟨hentry, hchan, hdone, hcause, hstop⟩, rfl, .inl (setSlot_setSlot _ _ _ _)⟩
  split
  · obtain ⟨h1, h2, h3, h4, h5⟩ := beginWrite_keeps ((orphanReads s k).setSlot k y) y
    exact ⟨_, ⟨h1.trans hentry, h2.trans hchan, h3.trans hdone, h4.trans hcause, h5.trans hstop⟩,
      (beginWrite_holds _ y).1, .inl (setSlot_setSlot _ _ _ _)⟩
  · exact ⟨y, hy, rfl, .inr (by rw [hstatus])⟩

theorem setSlot_slot_ne (s : State) {k j : Fin 4} (y : Slot) (h : j ≠ k) : (s.setSlot k y).slot j = s.slot j :=
  (get_set _ _ _ _).trans (if_neg h)

theorem leaveRun_slot_ne (s : State) {k j : Fin 4} (sl : Slot) (h : j ≠ k) : (leaveRun s k sl).slot j = s.slot j := by
  obtain ⟨y, -, -, e | e⟩ := leaveRun_cases s k sl
  · rw [e, setSlot_slot_ne _ y h]
    rfl
  · rw [e, endSlot_slot, if_neg h, setSlot_slot_ne _ y h]
    rfl

theorem leaveRun_not_run (s : State) (k : Fin 4) (sl : Slot) : ((leaveRun s k sl).slot k).state ≠ .run := by
  obtain ⟨y, -, hy, e | e⟩ := leaveRun_cases s k sl
  · rw [e, setSlot_slot, hy]
    exact SlotState.noConfusion
  · rw [e, endSlot_slot, if_pos rfl]
    exact SlotState.noConfusion

theorem goes_leaveRun (s : State) (k : Fin 4) (sl : Slot) : s.Goes (leaveRun s k sl) := by
  obtain ⟨y, -, -, e | e⟩ := leaveRun_cases s k sl
  · rw [e]
    exact .of_channels
  · rw [e]
    exact State.Goes.trans .of_channels (goes_endSlot _ k _)

theorem leaveRun_tag (s : State) (k : Fin 4) (sl : Slot) (g : Fin 16) :
    (leaveRun s k sl).tag g = (orphanReads s k).tag g := by
  obtain ⟨ps, a, cs, w, ss, h⟩ :=
    finishSlot_eq ((orphanReads s k).setSlot k { trimDeliveries sl with state := .ending }) k
  exact (congrArg (·.tag g) h :)

/-! ### Slots that have left RUN stay out of it -/

/-- The slot is in ENDING after a host read failure, with `b` bytes done (R65). -/
def Slot.FailedAt (b : Nat) (x : Slot) : Prop :=
  x.state = .ending ∧ x.cause = .status .hostReadError ∧ x.bytesDone = b

/-- An IDLE slot stays as it is, one in ENDING after a failed read stays so, and no slot enters RUN. -/
def Slot.FallsTo (x y : Slot) : Prop :=
  (x = Slot.none → y = Slot.none) ∧ (∀ b, x.FailedAt b → y.FailedAt b) ∧ (x.state ≠ .run → y.state ≠ .run)

theorem Slot.FallsTo.refl (x : Slot) : x.FallsTo x := ⟨fun h => h, fun _ h => h, fun h => h⟩

theorem Slot.FallsTo.trans {x y z : Slot} (h : x.FallsTo y) (h' : y.FallsTo z) : x.FallsTo z :=
  ⟨fun e => h'.1 (h.1 e), fun b e => h'.2.1 b (h.2.1 b e), fun e => h'.2.2 (h.2.2 e)⟩

/-- From RUN or CHECK a slot can go wherever RUN is not. -/
theorem Slot.FallsTo.of_not_run {x y : Slot} (hx : x.state = .run ∨ x.state = .check) (hy : y.state ≠ .run) :
    x.FallsTo y := by
  refine ⟨fun e => ?_, fun b e => ?_, fun _ => hy⟩
  · rw [e] at hx
    exact hx.elim SlotState.noConfusion SlotState.noConfusion
  · rw [e.1] at hx
    exact hx.elim SlotState.noConfusion SlotState.noConfusion

def State.SlotsFall (s t : State) : Prop := ∀ k, (s.slot k).FallsTo (t.slot k)

theorem State.SlotsFall.trans {s t u : State} (h : s.SlotsFall t) (h' : t.SlotsFall u) : s.SlotsFall u :=
  fun k => (h k).trans (h' k)

theorem State.SlotsFall.of_slots {s t : State} (h : t.slots = s.slots := by rfl) : s.SlotsFall t := fun k => by
  rw [show t.slot k = s.slot k from congrArg (fun v => Vector.get v k) h]
  exact .refl _

theorem State.SlotsFall.foldl {α : Type} {f : State → α → State} (hf : ∀ (s : State) (a : α), s.SlotsFall (f s a))
    (l : List α) (s : State) : s.SlotsFall (l.foldl f s) := by
  induction l generalizing s with
  | nil => exact .of_slots
  | cons a l ih => exact (hf s a).trans (ih _)

/-- One slot alone has changed. -/
theorem State.SlotsFall.of_one {s t : State} {k : Fin 4} (hother : ∀ j, j ≠ k → t.slot j = s.slot j)
    (h : (s.slot k).FallsTo (t.slot k)) : s.SlotsFall t := fun j => by
  by_cases hj : j = k
  · rw [hj]
    exact h
  · rw [hother j hj]
    exact .refl _

theorem slotsFall_leaveRun {s : State} {k : Fin 4} (sl : Slot) (h : (s.slot k).state = .run) :
    s.SlotsFall (leaveRun s k sl) :=
  .of_one (fun _ hj => leaveRun_slot_ne s sl hj) (.of_not_run (.inl h) (leaveRun_not_run s k sl))

/-- What a stop request leaves of a slot (R72 to R74). -/
theorem stopSlot_falls (s : State) (k : Fin 4) (q : StopRequest) :
    s.SlotsFall (stopSlot s k q) ∧ s.Goes (stopSlot s k q) ∧ ((stopSlot s k q).slot k).state ≠ .run := by
  cases h : (s.slot k).state with
  | idle =>
    rw [stopSlot_idle q h, h]
    exact ⟨.of_slots, .refl s, SlotState.noConfusion⟩
  | check =>
    rw [stopSlot_check q h]
    generalize Slot.status { s.slot k with cause := q.cause } = st
    generalize hy : ({ s.slot k with state := .ending, cause := q.cause, stop := q } : Slot) = y
    have hk : (endSlot (s.setSlot k y) k st).slot k = Slot.none := by rw [endSlot_slot, if_pos rfl]
    have hrun : ((endSlot (s.setSlot k y) k st).slot k).state ≠ .run := by
      rw [hk]
      exact SlotState.noConfusion
    refine ⟨.of_one (fun j hj => ?_) (.of_not_run (.inr h) hrun), State.Goes.trans .of_channels (goes_endSlot _ k st),
      hrun⟩
    rw [endSlot_slot, if_neg hj, setSlot_slot_ne s y hj]
  | run =>
    rw [stopSlot_run q h]
    exact ⟨slotsFall_leaveRun _ h, goes_leaveRun s k _, leaveRun_not_run s k _⟩
  | ending =>
    rw [stopSlot_ending q h]
    have hkeep : ∀ e : EndCause, e = .status .hostReadError → e.after q = .status .hostReadError := by
      rintro _ rfl
      rfl
    refine ⟨.of_one (fun j hj => setSlot_slot_ne s _ hj) ?_, .of_channels, ?_⟩
    · rw [setSlot_slot]
      refine ⟨fun e => ?_, fun b ⟨h1, h2, h3⟩ => ⟨h1, ?_, h3⟩, fun e => e⟩
      · rw [e] at h
        cases h
      · show (if (s.slot k).stop = .silent then (s.slot k).cause else (s.slot k).cause.after q) = _
        split
        · exact h2
        · exact hkeep _ h2
    · rw [setSlot_slot]
      show (s.slot k).state ≠ .run
      rw [h]
      exact SlotState.noConfusion

theorem slotsFall_stopAllSlots (s : State) (q : StopRequest) : s.SlotsFall (stopAllSlots s q) :=
  .foldl (fun u k => (stopSlot_falls u k q).1) allSlots s

theorem goes_stopAllSlots (s : State) (q : StopRequest) : s.Goes (stopAllSlots s q) :=
  .foldl (fun u k => (stopSlot_falls u k q).2.1) allSlots s

/-- No slot is left in RUN by stop requests to all (R72). -/
theorem stopAllSlots_not_run (s : State) (q : StopRequest) (k : Fin 4) :
    ((stopAllSlots s q).slot k).state ≠ .run :=
  foldl_reaches (P := fun _ => True) (Q := fun u => (u.slot k).state ≠ .run) (f := fun u j => stopSlot u j q)
    (List.mem_finRange k) (fun _ _ _ _ => trivial) (fun u _ => (stopSlot_falls u k q).2.2)
    (fun u j hu => ((stopSlot_falls u j q).1 k).2.2 hu) trivial

/-! ### Failing reads -/

theorem readFailed_slots {s : State} {x : Tag}
    (h : ∀ k, x.holder = .slot k → x.orphan = true ∨ (s.slot k).state ≠ .run) :
    (readFailed s x).slots = s.slots ∧ (readFailed s x).link.tags = s.link.tags := by
  unfold readFailed
  split
  · exact ⟨rfl, rfl⟩
  · rename_i k hk
    split
    · exact ⟨rfl, rfl⟩
    · rename_i ho
      unfold slotReadFailed
      simp only [if_neg ((h k hk).resolve_left ho)]
      exact ⟨trivial, trivial⟩
  · obtain ⟨a, f, e, q, e⟩ := adminFetchFailed_eq s
    rw [e]
    exact ⟨rfl, rfl⟩
  · obtain ⟨cs, fs, e, q, e⟩ := channelFetchFailed_eq s ‹_›
    rw [e]
    exact ⟨rfl, rfl⟩

theorem goes_raise (s : State) (c : Cause) : s.Goes (s.raise c) := fun d => by
  rw [raise_chan]
  exact .refl _

theorem goes_channelFetchFailed (s : State) (c : Fin 16) : s.Goes (channelFetchFailed s c) := by
  unfold channelFetchFailed
  split
  · split
    · refine State.Goes.trans ?_ (goes_raise _ _)
      refine .of_set (c := c) rfl ?_
      split
      · exact ⟨.inr rfl, fun _ h => h⟩
      · exact .refl _
    · exact .of_channels
  all_goals exact .of_channels

/-- A failed read costs its slot RUN, or leaves the slots and the tags. -/
theorem readFailed_cases (s : State) (x : Tag) :
    (∃ k, x.holder = .slot k ∧ x.orphan = false ∧ (s.slot k).state = .run ∧
        readFailed s x = leaveRun s k { s.slot k with cause := .status .hostReadError }) ∨
      (readFailed s x).slots = s.slots ∧ (readFailed s x).link.tags = s.link.tags ∧ s.Goes (readFailed s x) := by
  by_cases h : ∀ k, x.holder = .slot k → x.orphan = true ∨ (s.slot k).state ≠ .run
  · refine .inr ⟨(readFailed_slots h).1, (readFailed_slots h).2, ?_⟩
    unfold readFailed
    split
    · exact .refl s
    · rename_i k hk
      split
      · exact .refl s
      · rename_i ho
        unfold slotReadFailed
        simp only [if_neg ((h k hk).resolve_left ho)]
        exact .refl s
    · obtain ⟨a, f, e, q, e⟩ := adminFetchFailed_eq s
      rw [e]
      exact .of_channels
    · exact goes_channelFetchFailed s _
  · obtain ⟨k, hk⟩ := not_forall.mp h
    obtain ⟨hx, hn⟩ := Classical.not_imp.mp hk
    obtain ⟨ho, hs⟩ := not_or.mp hn
    refine .inl ⟨k, hx, by simpa using ho, not_not.mp hs, ?_⟩
    simp only [readFailed, hx, if_neg ho, slotReadFailed, if_pos (not_not.mp hs)]

theorem slotsFall_readFailed (s : State) (x : Tag) : s.SlotsFall (readFailed s x) := by
  obtain ⟨k, -, -, hs, e⟩ | ⟨e, -, -⟩ := readFailed_cases s x
  · rw [e]
    exact slotsFall_leaveRun _ hs
  · exact .of_slots e

theorem goes_readFailed (s : State) (x : Tag) : s.Goes (readFailed s x) := by
  obtain ⟨k, -, -, -, e⟩ | ⟨-, -, h⟩ := readFailed_cases s x
  · rw [e]
    exact goes_leaveRun s k _
  · exact h

theorem slotsFall_failTag (s : State) (g : Fin 16) : s.SlotsFall (failTag s g) := by
  unfold failTag
  simp only
  split
  · exact slotsFall_readFailed (s.setTag g Tag.none) _
  · exact .of_slots

theorem goes_failTag (s : State) (g : Fin 16) : s.Goes (failTag s g) := by
  unfold failTag
  simp only
  split
  · exact goes_readFailed (s.setTag g Tag.none) _
  · exact .of_channels

theorem slotsFall_failAllTags (s : State) : s.SlotsFall (failAllTags s) := .foldl slotsFall_failTag allTags s

/-! ### A slot that has lost a read (R65) -/

/-- The descriptor of slot `k`, in RUN as `x`, has ended HOST_READ_ERROR or is in ENDING with that cause (R65, R70). -/
def State.ReadLost (x : Slot) (k : Fin 4) (u : State) : Prop :=
  (u.slot k = Slot.none ∧
      (x.stop ≠ .silent →
        ∃ f ∈ (u.chan x.chan).held,
          f.status = .hostReadError ∧ f.tag = wordAt x.entry 4 ∧ f.bytesDone = x.bytesDone)) ∨
    (u.slot k).FailedAt x.bytesDone

theorem State.ReadLost.mono {x : Slot} {k : Fin 4} {u v : State} (h : State.ReadLost x k u) (hs : u.SlotsFall v)
    (hc : u.Goes v) : State.ReadLost x k v := by
  obtain ⟨hidle, hf⟩ | h := h
  · refine .inl ⟨(hs k).1 hidle, fun hx => ?_⟩
    obtain ⟨f, hm, hf⟩ := hf hx
    exact ⟨f, (hc x.chan).2 f hm, hf⟩
  · exact .inr ((hs k).2.1 _ h)

theorem leaveRun_readLost (s : State) (k : Fin 4) (x : Slot) :
    State.ReadLost x k (leaveRun s k { x with cause := .status .hostReadError }) := by
  obtain ⟨y, ⟨hentry, hchan, hdone, hcause, hstop⟩, hy, e | e⟩ :=
    leaveRun_cases s k { x with cause := .status .hostReadError }
  · refine .inr ?_
    rw [e, setSlot_slot]
    exact ⟨hy, hcause, hdone⟩
  · refine .inl ⟨by rw [e, endSlot_slot, if_pos rfl], fun hx => ?_⟩
    rw [e]
    have hslot := setSlot_slot (orphanReads s k) k y
    generalize (orphanReads s k).setSlot k y = u at hslot
    have hyc : y.chan = x.chan := hchan
    rw [endSlot_chan, if_pos ⟨by rw [hslot, hstop]; exact hx, by rw [hslot, hyc]⟩, hslot]
    refine ⟨slotCompletion y .hostReadError, List.mem_append_right _ (List.mem_singleton_self _), rfl, ?_, hdone⟩
    exact congrArg (wordAt · 4) hentry

theorem failTag_readLost {s : State} {k : Fin 4} {g : Fin 16} (hw : (s.tag g).state = .waiting)
    (hx : (s.tag g).holder = .slot k) (ho : (s.tag g).orphan = false) (hs : (s.slot k).state = .run) :
    State.ReadLost (s.slot k) k (failTag s g) := by
  have h : failTag s g = leaveRun (s.setTag g Tag.none) k { s.slot k with cause := .status .hostReadError } := by
    have hread : readFailed (s.setTag g Tag.none) (s.tag g) =
        leaveRun (s.setTag g Tag.none) k { s.slot k with cause := .status .hostReadError } := by
      simp only [readFailed, hx, ho, slotReadFailed]
      exact if_pos hs
    exact (if_pos hw).trans hread
  rw [h]
  exact leaveRun_readLost _ k _

/-- The failing of another tag leaves the slot and the tag that stands for its read, or costs the slot RUN. -/
theorem failTag_other {s : State} {k : Fin 4} {g h : Fin 16} (hne : g ≠ h) (hx : (s.tag g).holder = .slot k) :
    State.ReadLost (s.slot k) k (failTag s h) ∨
      ((failTag s h).slot k = s.slot k ∧ (failTag s h).tag g = s.tag g) := by
  have htag : (s.setTag h Tag.none).tag g = s.tag g := by rw [State.setTag_tag, if_neg hne]
  unfold failTag
  simp only
  split
  · obtain ⟨j, -, -, -, e⟩ | ⟨e, et, -⟩ := readFailed_cases (s.setTag h Tag.none) (s.tag h)
    · rw [e]
      by_cases hj : k = j
      · subst hj
        exact .inl (leaveRun_readLost _ k _)
      · refine .inr ⟨leaveRun_slot_ne _ _ hj, ?_⟩
        rw [leaveRun_tag, orphanReads_tag_of_ne, htag]
        rw [htag, hx]
        exact fun e => hj (TagHolder.slot.inj e.2)
    · exact .inr ⟨congrArg (fun v => Vector.get v k) e, (congrArg (fun v => Vector.get v g) et).trans htag⟩
  · exact .inr ⟨rfl, htag⟩

/-- A slot in RUN with a WAITING read that it has not orphaned loses it when every read fails (R65, R173, R174). -/
theorem failAllTags_readLost {s : State} {k : Fin 4} {g : Fin 16} (hw : (s.tag g).state = .waiting)
    (hx : (s.tag g).holder = .slot k) (ho : (s.tag g).orphan = false) (hs : (s.slot k).state = .run) :
    State.ReadLost (s.slot k) k (failAllTags s) := by
  refine foldl_reaches (l := allTags) (f := failTag) (a := g)
    (P := fun u => State.ReadLost (s.slot k) k u ∨ (u.slot k = s.slot k ∧ u.tag g = s.tag g))
    (Q := fun u => State.ReadLost (s.slot k) k u) (List.mem_finRange g)
    (fun u h hne hu => ?_) (fun u hu => ?_) (fun u h hu => hu.mono (slotsFall_failTag u h) (goes_failTag u h))
    (.inr ⟨rfl, rfl⟩)
  · obtain hu | ⟨hslot, htag⟩ := hu
    · exact .inl (hu.mono (slotsFall_failTag u h) (goes_failTag u h))
    · have hother := failTag_other (s := u) (k := k) hne.symm (by rw [htag]; exact hx)
      rwa [hslot, htag] at hother
  · obtain hu | ⟨hslot, htag⟩ := hu
    · exact hu.mono (slotsFall_failTag u g) (goes_failTag u g)
    · have hlost := failTag_readLost (s := u) (k := k) (g := g) (by rw [htag]; exact hw) (by rw [htag]; exact hx)
        (by rw [htag]; exact ho) (by rw [hslot]; exact hs)
      rwa [hslot] at hlost

end Sys2Proof.Machine
end

section
/-! SUPPORT. LINK_UP, LINK_DOWN and LINK_RESET (R30, R65, R128, R133, R138, R158, R167, R169, R173, R174): what each holder of
a failed read is told, and what the drain or the state that follows keeps of it. -/

-- One theorem at a time, as in the tests above: fewer threads than the memory limit allows.
set_option Elab.async false

namespace Sys2Proof.Machine

/-! ### Fetches that fail (R30, R31, R132, R133) -/

theorem raise_fetchOf (s : State) (e : Cause) (c : Fin 16) : (s.raise e).fetchOf c = s.fetchOf c := by
  obtain ⟨_, _, h⟩ := raise_eq s e
  rw [h]
  rfl

theorem channelFetchFailed_fetch_ne (s : State) {c d : Fin 16} (h : c ≠ d) :
    (channelFetchFailed s d).fetchOf c = s.fetchOf c := by
  have hset : ∀ u : State, (u.setFetch d .empty).fetchOf c = u.fetchOf c := fun u => by
    rw [State.setFetch_fetchOf, if_neg h]
  unfold channelFetchFailed
  split
  · split
    · rw [raise_fetchOf, hset]
      rfl
    · exact hset s
  · exact hset s
  · rfl
  · rfl

theorem slotReadFailed_fetch (s : State) (k : Fin 4) :
    (slotReadFailed s k).fetch = s.fetch ∧ (slotReadFailed s k).adminFetch = s.adminFetch := by
  unfold slotReadFailed
  simp only
  split
  · obtain ⟨ps, a, cs, w, ss, ts, h⟩ := leaveRun_eq s k { s.slot k with cause := .status .hostReadError }
    rw [h]
    exact ⟨rfl, rfl⟩
  · exact ⟨rfl, rfl⟩

/-- A failed read leaves a channel's fetch record, or is that channel's fetch. -/
theorem readFailed_fetch (s : State) (x : Tag) (c : Fin 16) :
    (readFailed s x).fetchOf c = s.fetchOf c ∨ readFailed s x = channelFetchFailed s c := by
  unfold readFailed
  split
  · exact .inl rfl
  · split
    · exact .inl rfl
    · exact .inl (congrArg (fun v => Vector.get v c) (slotReadFailed_fetch s _).1)
  · obtain ⟨a, f, e, q, h⟩ := adminFetchFailed_eq s
    exact .inl (congrArg (·.fetchOf c) h :)
  · rename_i d _
    by_cases hd : c = d
    · rw [hd]
      exact .inr rfl
    · exact .inl (channelFetchFailed_fetch_ne s hd)

/-- A failed read leaves the admin ring's fetch record, or is the admin ring's fetch. -/
theorem readFailed_adminFetch (s : State) (x : Tag) :
    (readFailed s x).adminFetch = s.adminFetch ∨ readFailed s x = adminFetchFailed s := by
  unfold readFailed
  split
  · exact .inl rfl
  · split
    · exact .inl rfl
    · exact .inl (slotReadFailed_fetch s _).2
  · exact .inr rfl
  · obtain ⟨cs, fs, e, q, h⟩ := channelFetchFailed_eq s ‹_›
    exact .inl (congrArg State.adminFetch h :)

/-- The record held a read, and what its failing tells the channel has been told (R30, R31). -/
def State.FetchLost (s : State) (c : Fin 16) (u : State) : Prop :=
  u.fetchOf c = .empty ∧
    ∀ n, s.fetchOf c = .inFlight n → s.atWork = true →
      u.events.has .fetchError = true ∧
        ((s.chan c).state = .running ∨ (s.chan c).state = .paused → (u.chan c).state = .halted)

theorem State.FetchLost.mono {s u v : State} {c : Fin 16} (h : s.FetchLost c u) (hf : u.Falls v) (hg : u.Goes v) :
    s.FetchLost c v :=
  ⟨hf.fetch c h.1, fun n hn hw => ⟨hf.events _ (h.2 n hn hw).1, fun hs => by
    have hh := (h.2 n hn hw).2 hs
    obtain e | e := (hg c).1
    · exact e.trans hh
    · exact e⟩⟩

/-- The failing of a channel's own fetch, in a state that has kept what the channel was. -/
theorem channelFetchFailed_lost {s u : State} {c : Fin 16} {n : Nat} (hop : u.ctl.op = s.ctl.op)
    (hn : s.fetchOf c = .inFlight n ∨ s.fetchOf c = .orphaned n) (hf : u.fetchOf c = s.fetchOf c)
    (hg : (s.chan c).GoesTo (u.chan c)) : s.FetchLost c (channelFetchFailed u c) := by
  have hset : ∀ v : State, (v.setFetch c .empty).fetchOf c = .empty := fun v => by
    rw [State.setFetch_fetchOf, if_pos rfl]
  obtain hn | hn := hn
  · have hu := hf.trans hn
    by_cases hw : s.atWork = true
    · have hw' : u.atWork = true := by
        unfold State.atWork at hw ⊢
        rwa [hop]
      generalize hx : (if (u.chan c).state = .running ∨ (u.chan c).state = .paused then
        { u.chan c with state := .halted } else u.chan c) = x
      have he : channelFetchFailed u c = ((u.setChan c x).setFetch c .empty).raise .fetchError := by
        simp only [channelFetchFailed, hu, hw', if_true, hx]
      rw [he]
      refine ⟨by rw [raise_fetchOf, hset], fun _ _ _ => ⟨raise_sets _ _, fun hs => ?_⟩⟩
      rw [raise_chan]
      refine (congrArg Channel.state (State.setChan_chan_self u c x)).trans ?_
      rw [← hx]
      split
      · rfl
      · rename_i hno
        obtain e | e := hg.1
        · rw [e] at hno
          exact absurd hs hno
        · exact e
    · have hw' : ¬u.atWork = true := by
        unfold State.atWork at hw ⊢
        rwa [hop]
      have he : channelFetchFailed u c = u.setFetch c .empty := by
        simp only [channelFetchFailed, hu, if_neg hw']
      rw [he]
      exact ⟨hset u, fun _ _ h => absurd h hw⟩
  · have hu := hf.trans hn
    have he : channelFetchFailed u c = u.setFetch c .empty := by
      simp only [channelFetchFailed, hu]
    rw [he]
    refine ⟨hset u, fun m hm => ?_⟩
    rw [hn] at hm
    cases hm

theorem failTag_op (s : State) (g : Fin 16) : (failTag s g).ctl.op = s.ctl.op := by
  obtain ⟨ps, a, cs, w, ss, fs, f, e, q, ts, h⟩ := failTag_eq s g
  rw [h]

/-- A tag whose holder is no slot is touched by no other tag's failing. -/
theorem failTag_tag_of_ne {s : State} {g h : Fin 16} (hne : g ≠ h) (hx : ∀ k, (s.tag g).holder ≠ .slot k) :
    (failTag s h).tag g = s.tag g := by
  have htag : (s.setTag h Tag.none).tag g = s.tag g := by rw [State.setTag_tag, if_neg hne]
  unfold failTag
  simp only
  split
  · obtain ⟨j, -, -, -, e⟩ | ⟨-, et, -⟩ := readFailed_cases (s.setTag h Tag.none) (s.tag h)
    · rw [e, leaveRun_tag, orphanReads_tag_of_ne, htag]
      rw [htag]
      exact fun e => hx j e.2
    · exact (congrArg (fun v => Vector.get v g) et).trans htag
  · exact htag

/-- What a tag's failing does, as a read that fails once the tag is FREE, or the freeing of the tag alone. -/
theorem failTag_cases (s : State) (g : Fin 16) :
    failTag s g = readFailed (s.setTag g Tag.none) (s.tag g) ∨ failTag s g = s.setTag g Tag.none := by
  unfold failTag
  simp only
  split
  · exact .inl rfl
  · exact .inr rfl

theorem failAllTags_fetchLost {s : State} {c g : Fin 16} {n : Nat} (hw : (s.tag g).state = .waiting)
    (hx : (s.tag g).holder = .channel c) (hn : s.fetchOf c = .inFlight n ∨ s.fetchOf c = .orphaned n) :
    s.FetchLost c (failAllTags s) := by
  have hnoslot : ∀ k, (s.tag g).holder ≠ .slot k := fun k => by
    rw [hx]
    exact TagHolder.noConfusion
  have htold : ∀ (u : State) (h : Fin 16), u.ctl.op = s.ctl.op → u.fetchOf c = s.fetchOf c →
      (s.chan c).GoesTo (u.chan c) → s.FetchLost c (channelFetchFailed (u.setTag h Tag.none) c) :=
    fun u h hop hf hg => channelFetchFailed_lost (u := u.setTag h Tag.none) hop hn hf hg
  refine foldl_reaches (l := allTags) (f := failTag) (a := g)
    (P := fun u => u.tag g = s.tag g ∧ u.ctl.op = s.ctl.op ∧
      (s.FetchLost c u ∨ (u.fetchOf c = s.fetchOf c ∧ (s.chan c).GoesTo (u.chan c))))
    (Q := s.FetchLost c) (List.mem_finRange g)
    (fun u h hne ⟨htag, hop, hu⟩ => ⟨(failTag_tag_of_ne hne.symm (by rwa [htag])).trans htag,
      (failTag_op u h).trans hop, ?_⟩)
    (fun u ⟨htag, hop, hu⟩ => ?_) (fun u h hu => hu.mono (falls_failTag u h) (goes_failTag u h))
    ⟨rfl, rfl, .inr ⟨rfl, .refl _⟩⟩
  · obtain hu | ⟨hf, hg⟩ := hu
    · exact .inl (hu.mono (falls_failTag u h) (goes_failTag u h))
    · have hgoes := hg.trans (goes_failTag u h c)
      obtain e | e := failTag_cases u h
      · obtain hsame | hc := readFailed_fetch (u.setTag h Tag.none) (u.tag h) c
        · exact .inr ⟨by rw [e, hsame]; exact hf, hgoes⟩
        · rw [e, hc]
          exact .inl (htold u h hop hf hg)
      · exact .inr ⟨by rw [e]; exact hf, hgoes⟩
  · obtain hu | ⟨hf, hg⟩ := hu
    · exact hu.mono (falls_failTag u g) (goes_failTag u g)
    · have he : failTag u g = channelFetchFailed (u.setTag g Tag.none) c := by
        unfold failTag
        simp only [htag, hw, if_true, readFailed, hx]
      rw [he]
      exact htold u g hop hf hg

/-- The admin ring's record held a read, and its failing has been told (R133). -/
def State.AdminFetchLost (s u : State) : Prop :=
  u.adminFetch = .empty ∧ ∀ n, s.adminFetch = .inFlight n → s.atWork = true → u.events.has .adminFault = true

theorem State.AdminFetchLost.mono {s u v : State} (h : s.AdminFetchLost u) (hf : u.Falls v) : s.AdminFetchLost v :=
  ⟨hf.admin h.1, fun n hn hw => hf.events _ (h.2 n hn hw)⟩

theorem adminFetchFailed_lost {s u : State} {n : Nat} (hop : u.ctl.op = s.ctl.op)
    (hn : s.adminFetch = .inFlight n ∨ s.adminFetch = .orphaned n) (hf : u.adminFetch = s.adminFetch) :
    s.AdminFetchLost (adminFetchFailed u) := by
  have hwork : u.atWork = s.atWork := by
    unfold State.atWork
    rw [hop]
  obtain hn | hn := hn
  · have hu := hf.trans hn
    by_cases hw : s.atWork = true
    · have he : adminFetchFailed u = { u with adminFetch := .empty, admin := u.admin.failed }.raise .adminFault := by
        simp only [adminFetchFailed, hu, hwork, hw, if_true]
      rw [he]
      exact ⟨(falls_raise _ _).admin rfl, fun _ _ _ => raise_sets _ _⟩
    · have he : adminFetchFailed u = { u with adminFetch := .empty } := by
        simp only [adminFetchFailed, hu, hwork, if_neg hw]
      rw [he]
      exact ⟨rfl, fun _ _ h => absurd h hw⟩
  · have hu := hf.trans hn
    have he : adminFetchFailed u = { u with adminFetch := .empty } := by
      simp only [adminFetchFailed, hu]
    rw [he]
    refine ⟨rfl, fun m hm => ?_⟩
    rw [hn] at hm
    cases hm

theorem failAllTags_adminFetchLost {s : State} {g : Fin 16} {n : Nat} (hw : (s.tag g).state = .waiting)
    (hx : (s.tag g).holder = .admin) (hn : s.adminFetch = .inFlight n ∨ s.adminFetch = .orphaned n) :
    s.AdminFetchLost (failAllTags s) := by
  have hnoslot : ∀ k, (s.tag g).holder ≠ .slot k := fun k => by
    rw [hx]
    exact TagHolder.noConfusion
  have htold : ∀ (u : State) (h : Fin 16), u.ctl.op = s.ctl.op → u.adminFetch = s.adminFetch →
      s.AdminFetchLost (adminFetchFailed (u.setTag h Tag.none)) :=
    fun u h hop hf => adminFetchFailed_lost (u := u.setTag h Tag.none) hop hn hf
  refine foldl_reaches (l := allTags) (f := failTag) (a := g)
    (P := fun u => u.tag g = s.tag g ∧ u.ctl.op = s.ctl.op ∧ (s.AdminFetchLost u ∨ u.adminFetch = s.adminFetch))
    (Q := s.AdminFetchLost) (List.mem_finRange g)
    (fun u h hne ⟨htag, hop, hu⟩ => ⟨(failTag_tag_of_ne hne.symm (by rwa [htag])).trans htag,
      (failTag_op u h).trans hop, ?_⟩)
    (fun u ⟨htag, hop, hu⟩ => ?_) (fun u h hu => hu.mono (falls_failTag u h)) ⟨rfl, rfl, .inr rfl⟩
  · obtain hu | hf := hu
    · exact .inl (hu.mono (falls_failTag u h))
    · obtain e | e := failTag_cases u h
      · obtain hsame | hc := readFailed_adminFetch (u.setTag h Tag.none) (u.tag h)
        · exact .inr (by rw [e, hsame]; exact hf)
        · rw [e, hc]
          exact .inl (htold u h hop hf)
      · exact .inr (by rw [e]; exact hf)
  · obtain hu | hf := hu
    · exact hu.mono (falls_failTag u g)
    · have he : failTag u g = adminFetchFailed (u.setTag g Tag.none) := by
        unfold failTag
        simp only [htag, hw, if_true, readFailed, hx]
      rw [he]
      exact htold u g hop hf

end Sys2Proof.Machine
end

section
/-! SUPPORT. The end of a link down and of a link reset (R128, R138, R155, R158, R167, R169, R173, R174): the drain that
starts or the state that stays, concluded, with no request granted that a read's failing has withdrawn. -/

-- One theorem at a time, as in the tests above: fewer threads than the memory limit allows.
set_option Elab.async false

namespace Sys2Proof.Machine

/-! ### The passages of a drain -/

theorem endFlush_phase (s : State) (o : FlushOutcome) : (endFlush s o).ctl.phase = .settle := by
  obtain ⟨cs, fs, rs, q, w, a, h⟩ := endFlush_eq s o
  rw [h]

theorem endFlush_frame (s : State) (o : FlushOutcome) :
    (endFlush s o).slots = s.slots ∧ (endFlush s o).ctl.op = s.ctl.op := by
  obtain ⟨cs, fs, rs, q, w, a, h⟩ := endFlush_eq s o
  rw [h]
  exact ⟨rfl, rfl⟩

theorem beginSettle_frame (s : State) :
    (beginSettle s).slots = s.slots ∧ (beginSettle s).ctl.op = s.ctl.op ∧ (beginSettle s).ctl.phase = .settle := by
  obtain ⟨cs, fs, rs, q, w, a, h⟩ := beginSettle_eq s
  rw [h]
  exact ⟨rfl, rfl, rfl⟩

/-- STOP ends in SETTLE, or leaves every channel's completions and halts (R157). -/
theorem stopStep_frame (s : State) :
    (stopStep s).slots = s.slots ∧ (stopStep s).ctl.op = s.ctl.op ∧
      ((stopStep s).ctl.phase = .settle ∨ s.Goes (stopStep s)) := by
  by_cases h : s.ctl.op = .draining ∧ s.ctl.phase = .stop
  · rw [stopStep_on h.1 h.2]
    have hall := goes_allStopped s
    have hslots : s.allStopped.slots = s.slots := rfl
    have hop : s.allStopped.ctl.op = s.ctl.op := rfl
    generalize s.allStopped = u at hall hslots hop
    split
    · unfold endStop
      split
      · split
        · exact ⟨(endFlush_frame u _).1.trans hslots, (endFlush_frame u _).2.trans hop, .inl (endFlush_phase u _)⟩
        · exact ⟨hslots, hop, .inr (hall.trans .of_channels)⟩
      · obtain ⟨h1, h2, h3⟩ := beginSettle_frame u
        exact ⟨h1.trans hslots, h2.trans hop, .inl h3⟩
    · exact ⟨hslots, hop, .inr hall⟩
  · rw [stopStep_off (not_and_or.mp h)]
    exact ⟨rfl, rfl, .inr (.refl s)⟩

theorem flushStep_frame (s : State) :
    (flushStep s).slots = s.slots ∧ (flushStep s).ctl.op = s.ctl.op ∧
      ((flushStep s).ctl.phase = .settle ∨ flushStep s = s) := by
  unfold flushStep
  split
  · exact ⟨(endFlush_frame s _).1, (endFlush_frame s _).2, .inl (endFlush_phase s _)⟩
  · exact ⟨rfl, rfl, .inr rfl⟩

/-- The passages outside ACTIVE and QUIESCING end in SETTLE, or leave every channel's completions and halts. -/
theorem settlePhases_frame {s : State} (h : s.atWork = false) :
    (settlePhases s).slots = s.slots ∧ (settlePhases s).ctl.op = s.ctl.op ∧
      ((settlePhases s).ctl.phase = .settle ∨ s.Goes (settlePhases s)) := by
  rw [settlePhases_notAtWork h]
  obtain ⟨h1, h2, h3⟩ := stopStep_frame s
  obtain ⟨h4, h5, h6 | h6⟩ := flushStep_frame (stopStep s)
  · exact ⟨h4.trans h1, h5.trans h2, .inl h6⟩
  · rw [h6]
    exact ⟨h1, h2, h3⟩

/-- Where no drain is in STOP or FLUSH and no work goes on, nothing follows a happening. -/
theorem settlePhases_off {s : State} (h : s.atWork = false)
    (hd : s.ctl.op ≠ .draining ∨ (s.ctl.phase ≠ .stop ∧ s.ctl.phase ≠ .flush)) : settlePhases s = s := by
  rw [settlePhases_notAtWork h, stopStep_off (hd.imp_right And.left), flushStep_off (hd.imp_right And.right)]

/-! ### The link settled after reads have failed (R169) -/

theorem FetchRecord.refreshed_false_ne {f : FetchRecord} : f.refreshed false ≠ .requesting := by
  cases f <;> simp [FetchRecord.refreshed]

/-- With no fetch asked for, grants reach slots alone. -/
theorem grantTags_fetch_of_unasked (n : Nat) {s : State} (hf : ∀ c, s.fetchOf c ≠ .requesting)
    (ha : s.adminFetch ≠ .requesting) :
    (grantTags n s).fetch = s.fetch ∧ (grantTags n s).adminFetch = s.adminFetch := by
  induction n generalizing s with
  | zero => exact ⟨rfl, rfl⟩
  | succ n ih =>
    obtain hs | ⟨t, x, hu, ht, hx⟩ := noGrant_or s
    · rw [grantTags_of_noGrant hs]
      exact ⟨rfl, rfl⟩
    · rw [grantTags_succ hu ht hx]
      cases x with
      | none => exact absurd rfl (grantHolder_ne_none hx)
      | admin => exact absurd (grantHolder_admin hx) ha
      | channel c => exact absurd (grantHolder_channel hx) (hf c)
      | slot k => exact ih (s := grantTo s t (.slot k)) hf ha

theorem refreshRequests_unasked {s : State} (ho : s.ctl.op ≠ .active) :
    (∀ c, (refreshRequests s).fetchOf c ≠ .requesting) ∧ (refreshRequests s).adminFetch ≠ .requesting := by
  refine ⟨fun c => ?_, ?_⟩
  · rw [refreshRequests_fetchOf, channelWantsFetch_of_not_active ho]
    exact FetchRecord.refreshed_false_ne
  · show s.adminFetch.refreshed (adminWantsFetch s) ≠ _
    rw [adminWantsFetch_of_not_active ho]
    exact FetchRecord.refreshed_false_ne

/-- Outside ACTIVE an empty fetch record stays empty. -/
theorem settleLink_empty {s : State} (ho : s.ctl.op ≠ .active) :
    (∀ c, s.fetchOf c = .empty → (settleLink s).fetchOf c = .empty) ∧
      (s.adminFetch = .empty → (settleLink s).adminFetch = .empty) := by
  obtain ⟨hf, ha⟩ := refreshRequests_unasked ho
  obtain ⟨h1, h2⟩ := grantTags_fetch_of_unasked 16 hf ha
  refine ⟨fun c h => ?_, fun h => h2.trans ?_⟩
  · refine (congrArg (fun v => Vector.get v c) h1).trans ((refreshRequests_fetchOf s c).trans ?_)
    rw [h, channelWantsFetch_of_not_active ho]
    rfl
  · show s.adminFetch.refreshed (adminWantsFetch s) = _
    rw [h, adminWantsFetch_of_not_active ho]
    rfl

/-- With the link DOWN, or with no slot in RUN outside ACTIVE, requests are withdrawn and no tag is granted. -/
theorem settleLink_withdrawn {s : State}
    (h : s.link.up = false ∨ (s.ctl.op ≠ .active ∧ ∀ k, (s.slot k).state ≠ .run)) : settleLink s = refreshRequests s := by
  refine grantTags_of_noGrant ?_ 16
  obtain h | ⟨ho, hs⟩ := h
  · exact .inl h
  · obtain ⟨hf, ha⟩ := refreshRequests_unasked ho
    refine .inr (.inr (grantHolder_eq_none.mpr ⟨fun k => ?_, ha, hf⟩))
    rw [refreshRequests_requests]
    simp [slotWantsTag, hs k]

theorem refreshRequests_of_not_run {s : State} (hs : ∀ k, (s.slot k).state ≠ .run) :
    (refreshRequests s).link = { s.link with slotRequests := Vector.replicate 4 false } := by
  have hreq : tabulate 4 (fun k => slotWantsTag (s.slot k)) = Vector.replicate 4 false := vector_ext_get fun k => by
    rw [tabulate_get, get_replicate]
    simp [slotWantsTag, hs k]
  rw [refreshRequests, hreq]

/-! ### A happening concluded -/

/-- A grant of the port changes the port, a slot's request and the refresh timer alone. -/
theorem settlePort_beside (s : State) :
    settlePort s =
      { s with port := (settlePort s).port, slots := (settlePort s).slots, refresh := (settlePort s).refresh } := by
  unfold settlePort
  split
  · cases portChoice s <;> rfl
  · rfl

/-- What the conclusion of a happening leaves as its passages have it. -/
structure State.Concluded (p t : State) : Prop where
  channels  : t.channels = p.channels
  ctl       : t.ctl = p.ctl
  events    : t.events = p.events
  mem       : t.mem = p.mem
  adminRing : t.adminRing = p.adminRing
  monitor   : t.monitor = p.monitor
  link      : t.link = (settleLink p).link
  fetch     : t.fetch = (settleLink p).fetch
  admin     : t.adminFetch = (settleLink p).adminFetch

theorem conclude_concluded (d : State) : (settlePhases d).Concluded (conclude d) := by
  have hport := settlePort_beside (settleLink (settlePhases d))
  have htags := besideTags_settleLink (settlePhases d)
  exact ⟨(congrArg State.channels hport :).trans (congrArg State.channels htags :),
    (congrArg State.ctl hport :).trans (congrArg State.ctl htags :),
    (congrArg State.events hport :).trans (congrArg State.events htags :),
    (congrArg State.mem hport :).trans (congrArg State.mem htags :),
    (congrArg State.adminRing hport :).trans (congrArg State.adminRing htags :),
    (congrArg State.monitor hport :).trans (congrArg State.monitor htags :),
    (congrArg State.link hport :), (congrArg State.fetch hport :), (congrArg State.adminFetch hport :)⟩

/-! ### The drain or the state that follows (R155, R158, R173, R174) -/

/-- The start of a drain stops every slot and keeps completions and halts (R72, R155). -/
theorem startDrain_frame (s : State) (r : DrainReason) :
    (startDrain s r).ctl.op = .draining ∧ s.SlotsFall (startDrain s r) ∧ s.Goes (startDrain s r) ∧
      ∀ k, ((startDrain s r).slot k).state ≠ .run := by
  obtain ⟨w, hw, hchan, hslots, hop⟩ : ∃ w, startDrain s r = stopAllSlots w .terminated ∧ w.channels = s.channels ∧
      w.slots = s.slots ∧ w.ctl.op = .draining := ⟨_, rfl, rfl, rfl, rfl⟩
  obtain ⟨ps, a, cs, x, ss, ts, h⟩ := stopAllSlots_eq w .terminated
  rw [hw]
  exact ⟨(congrArg (·.ctl.op) h :).trans hop, (State.SlotsFall.of_slots hslots).trans (slotsFall_stopAllSlots w _),
    (State.Goes.of_channels hchan).trans (goes_stopAllSlots w _), stopAllSlots_not_run w _⟩

/-- After every read has failed at `s`: a drain has started, or the state stays outside ACTIVE and QUIESCING. -/
def State.Taken (s d : State) : Prop :=
  (s.atWork = true ∧ ∃ r, d = startDrain (failAllTags s) r) ∨
    (s.atWork = false ∧ d.atWork = false ∧ (failAllTags s).Falls d ∧ (failAllTags s).SlotsFall d)

theorem failAllTags_ctl (s : State) : ∃ w, (failAllTags s).ctl = { s.ctl with working := w } := by
  obtain ⟨ps, a, cs, w, ss, fs, f, e, q, ts, h⟩ := failAllTags_eq s
  exact ⟨w, (congrArg State.ctl h :)⟩

theorem failAllTags_atWork (s : State) : (failAllTags s).atWork = s.atWork := by
  obtain ⟨w, h⟩ := failAllTags_ctl s
  unfold State.atWork
  rw [h]

theorem linkDownTaken_taken (s : State) : s.Taken (linkDownTaken (failAllTags s)) := by
  have hwork := failAllTags_atWork s
  unfold linkDownTaken State.Taken
  generalize failAllTags s = f at hwork
  cases h : s.atWork with
  | true => exact .inl ⟨rfl, .linkDown, if_pos (hwork.trans h)⟩
  | false =>
    have hf : f.atWork = false := hwork.trans h
    refine .inr ⟨rfl, ?_⟩
    rw [if_neg (by simp [hf])]
    split
    · refine ⟨?_, falls_endFlush f _, .of_slots (endFlush_frame f _).1⟩
      unfold State.atWork at hf ⊢
      rwa [(endFlush_frame f _).2]
    · exact ⟨hf, .refl f, .of_slots⟩

theorem linkResetTaken_taken (s : State) : s.Taken (linkResetTaken (failAllTags s)) := by
  have hwork := failAllTags_atWork s
  unfold linkResetTaken State.Taken
  generalize failAllTags s = f at hwork
  cases h : s.atWork with
  | true => exact .inl ⟨rfl, .linkReset, if_pos (hwork.trans h)⟩
  | false =>
    have hf : f.atWork = false := hwork.trans h
    refine .inr ⟨rfl, ?_⟩
    rw [if_neg (by simp [hf])]
    split
    · exact ⟨hf, .untouched, .of_slots⟩
    · exact ⟨hf, .refl f, .of_slots⟩

section
variable {s d : State} (h : s.Taken d)
include h

theorem taken_notAtWork : d.atWork = false := by
  obtain ⟨-, r, hr⟩ | ⟨-, hd, -⟩ := h
  · have hop := (startDrain_frame (failAllTags s) r).1
    rw [← hr] at hop
    simp [State.atWork, hop]
  · exact hd

theorem taken_falls : (failAllTags s).Falls (settlePhases d) := by
  have hfd : (failAllTags s).Falls d := by
    obtain ⟨-, r, hr⟩ | ⟨-, -, hf, -⟩ := h
    · rw [hr]
      exact falls_startDrain _ r
    · exact hf
  exact hfd.trans (falls_settlePhases (taken_notAtWork h))

theorem taken_slotsFall : (failAllTags s).SlotsFall (settlePhases d) := by
  have hfd : (failAllTags s).SlotsFall d := by
    obtain ⟨-, r, hr⟩ | ⟨-, -, -, hs⟩ := h
    · rw [hr]
      exact (startDrain_frame _ r).2.1
    · exact hs
  exact hfd.trans (.of_slots (settlePhases_frame (taken_notAtWork h)).1)

theorem taken_not_active : (settlePhases d).ctl.op ≠ .active := by
  have hd := taken_notAtWork h
  rw [(settlePhases_frame hd).2.1]
  intro e
  simp [State.atWork, e] at hd

/-- No slot is in RUN where a drain has started, or where none was before. -/
theorem taken_not_run (hs : s.atWork = true ∨ ∀ k, (s.slot k).state ≠ .run) (k : Fin 4) :
    ((settlePhases d).slot k).state ≠ .run := by
  have hslot : (settlePhases d).slot k = d.slot k :=
    congrArg (fun v => Vector.get v k) (settlePhases_frame (taken_notAtWork h)).1
  obtain ⟨hw, r, hr⟩ | ⟨hw, -⟩ := id h
  · rw [hslot, hr]
    exact (startDrain_frame _ r).2.2.2 k
  · have hrun := hs.resolve_left (by simp [hw])
    exact (((slotsFall_failAllTags s).trans (taken_slotsFall h)) k).2.2 (hrun k)

/-- Unless the drain is in SETTLE, completions and halts are kept (R157). -/
theorem taken_goes (hw : s.atWork = true) (hp : (settlePhases d).ctl.phase ≠ .settle) :
    (failAllTags s).Goes (settlePhases d) := by
  have hd := taken_notAtWork h
  obtain ⟨-, r, hr⟩ | ⟨hn, -⟩ := h
  · have hgoes := (startDrain_frame (failAllTags s) r).2.2.1
    rw [← hr] at hgoes
    exact hgoes.trans ((settlePhases_frame hd).2.2.resolve_left hp)
  · rw [hw] at hn
    cases hn

end

/-! ### What the holders of the failed reads are told (R30, R65, R133) -/

/-- What the failing of every read at `s` has told its holders at `t`. -/
def State.Told (s t : State) : Prop :=
  ∀ g, (s.tag g).state = .waiting →
    (∀ c n, (s.tag g).holder = .channel c →
        (s.fetchOf c = .inFlight n ∨ s.fetchOf c = .orphaned n → t.fetchOf c = .empty) ∧
          (s.fetchOf c = .inFlight n → s.ctl.op = .active ∨ s.ctl.op = .quiescing →
            t.events.has .fetchError = true ∧
              ((s.chan c).state = .running ∨ (s.chan c).state = .paused → t.ctl.phase ≠ .settle →
                (t.chan c).state = .halted))) ∧
      (∀ n, (s.tag g).holder = .admin →
        (s.adminFetch = .inFlight n ∨ s.adminFetch = .orphaned n → t.adminFetch = .empty) ∧
          (s.adminFetch = .inFlight n → s.ctl.op = .active ∨ s.ctl.op = .quiescing →
            t.events.has .adminFault = true)) ∧
      ∀ k, (s.tag g).holder = .slot k → (s.tag g).orphan = false → (s.slot k).state = .run →
        s.ctl.op = .active ∨ s.ctl.op = .quiescing →
          (t.slot k = Slot.none ∨
              ((t.slot k).state = .ending ∧ (t.slot k).cause = .status .hostReadError ∧
                (t.slot k).bytesDone = (s.slot k).bytesDone)) ∧
            (t.slot k = Slot.none → t.ctl.phase ≠ .settle → (s.slot k).stop ≠ .silent →
              ∃ f ∈ (t.chan (s.slot k).chan).held,
                f.status = .hostReadError ∧ f.tag = wordAt (s.slot k).entry 4 ∧ f.bytesDone = (s.slot k).bytesDone)

theorem slotsFall_settlePort (s : State) : s.SlotsFall (settlePort s) := fun k => by
  obtain e | ⟨hw, e⟩ := settlePort_slot s k
  · rw [e]
    exact .refl _
  · rw [e]
    refine ⟨fun hn => ?_, fun _ hb => hb, fun hr => hr⟩
    rw [hn] at hw
    cases hw

theorem taken_told {s d : State} (h : s.Taken d) : s.Told (conclude d) := by
  have hfalls := taken_falls h
  have hactive := taken_not_active h
  have hslots := taken_slotsFall h
  have hrun := fun hw => taken_not_run h (.inl hw)
  have hgoes := taken_goes h
  obtain ⟨hchannels, hctl, hevents, -, -, -, -, hfetch, hadmin⟩ := conclude_concluded d
  have hend : s.atWork = true → (failAllTags s).SlotsFall (conclude d) := fun hw => by
    have hq := settleLink_withdrawn (.inr ⟨hactive, hrun hw⟩)
    have hsame : (settlePhases d).SlotsFall (settleLink (settlePhases d)) := .of_slots (by rw [hq]; rfl)
    exact hslots.trans (hsame.trans (slotsFall_settlePort _))
  generalize settlePhases d = p at hfalls hactive hgoes hchannels hctl hevents hfetch hadmin
  generalize conclude d = t at hchannels hctl hevents hfetch hadmin hend
  obtain ⟨hempty, hemptyAdmin⟩ := settleLink_empty hactive
  have hcauses : ∀ c, (failAllTags s).events.has c = true → t.events.has c = true := fun c hc => by
    rw [hevents]
    exact hfalls.events c hc
  have hkept : s.atWork = true → t.ctl.phase ≠ .settle → (failAllTags s).Goes t := fun hw hp =>
    (hgoes hw (by rwa [← hctl])).trans (.of_channels hchannels)
  intro g hg
  refine ⟨fun c n hx => ?_, fun n hx => ?_, fun k hx ho hs hw => ?_⟩
  · refine ⟨fun hn => ?_, fun hn hw => ?_⟩
    · exact (congrArg (fun v => Vector.get v c) hfetch).trans
        (hempty c (hfalls.fetch c (failAllTags_fetchLost hg hx hn).1))
    · obtain ⟨hcause, hhalt⟩ := (failAllTags_fetchLost hg hx (.inl hn)).2 n hn (atWork_iff.mpr hw)
      refine ⟨hcauses _ hcause, fun hs hp => ?_⟩
      obtain e | e := (hkept (atWork_iff.mpr hw) hp c).1
      · exact e.trans (hhalt hs)
      · exact e
  · refine ⟨fun hn => ?_, fun hn hw => ?_⟩
    · exact hadmin.trans (hemptyAdmin (hfalls.admin (failAllTags_adminFetchLost hg hx hn).1))
    · exact hcauses _ ((failAllTags_adminFetchLost hg hx (.inl hn)).2 n hn (atWork_iff.mpr hw))
  · have hfall := hend (atWork_iff.mpr hw) k
    obtain ⟨hidle, hdone⟩ | hfailed := failAllTags_readLost hg hx ho hs
    · refine ⟨.inl (hfall.1 hidle), fun _ hp hstop => ?_⟩
      obtain ⟨f, hf, hfield⟩ := hdone hstop
      exact ⟨f, (hkept (atWork_iff.mpr hw) hp _).2 f hf, hfield⟩
    · have ht := hfall.2.1 _ hfailed
      refine ⟨.inr ht, fun hn => ?_⟩
      rw [hn] at ht
      exact absurd ht.1 SlotState.noConfusion

/-! ### The commands -/

/-- Outside DRAINING the failing of reads leaves the State Controller (R157). -/
theorem endSlot_ctl {s : State} (h : s.ctl.op ≠ .draining) (k : Fin 4) (st : Status) : (endSlot s k st).ctl = s.ctl := by
  rw [endSlot_frame]
  show (if (s.slot k).stop = .silent then s.ctl else s.ctl.noted (s.slot k) st) = s.ctl
  split
  · rfl
  · exact if_neg fun e => h e.1

theorem leaveRun_ctl {s : State} (h : s.ctl.op ≠ .draining) (k : Fin 4) (x : Slot) :
    (leaveRun s k x).ctl = s.ctl := by
  obtain ⟨y, -, -, e | e⟩ := leaveRun_cases s k x
  · rw [e]
    rfl
  · rw [e, endSlot_ctl (s := (orphanReads s k).setSlot k y) h]
    rfl

theorem readFailed_ctl {s : State} (h : s.ctl.op ≠ .draining) (x : Tag) : (readFailed s x).ctl = s.ctl := by
  unfold readFailed
  split
  · rfl
  · split
    · rfl
    · unfold slotReadFailed
      simp only
      split
      · exact leaveRun_ctl h _ _
      · rfl
  · obtain ⟨a, f, e, q, h⟩ := adminFetchFailed_eq s
    rw [h]
  · obtain ⟨cs, fs, e, q, h⟩ := channelFetchFailed_eq s ‹_›
    rw [h]

theorem failAllTags_ctl_eq {s : State} (h : s.ctl.op ≠ .draining) : (failAllTags s).ctl = s.ctl := by
  refine List.foldlRecOn (motive := fun u => u.ctl = s.ctl) allTags failTag rfl fun u hu g _ => ?_
  obtain e | e := failTag_cases u g
  · rw [e, readFailed_ctl (s := u.setTag g Tag.none) (by rwa [State.setTag_ctl, hu])]
    exact hu
  · rw [e]
    exact hu

end Sys2Proof.Machine
end

section
/-! O31: LINK_UP, LINK_DOWN and LINK_RESET (R30, R65, R128, R133, R138, R158, R167, R169, R173, R174). -/

-- One theorem at a time, as in the tests above: fewer threads than the memory limit allows.
set_option Elab.async false

namespace Sys2Proof.Machine

/-! ### What stays of a state whose reads have failed -/

section
variable {s d : State} (h : s.Taken d)
include h

/-- With no message to send, the link has lost its tags alone (R173, R174). -/
theorem taken_link (hm : s.link.mute) :
    (settlePhases d).link = { s.link with tags := Vector.replicate 16 Tag.none } := by
  have hlink := ((falls_failAllTags s).trans (taken_falls h)).link hm
  have htags : (settlePhases d).link.tags = Vector.replicate 16 Tag.none := vector_ext_get fun g =>
    ((taken_falls h).tags g (failAllTags_tag s g)).trans (get_replicate _ _).symm
  rw [hlink, htags]

theorem taken_kept :
    (conclude d).mem = s.mem ∧ (conclude d).ctl.record = s.ctl.record ∧ (conclude d).adminRing = s.adminRing ∧
      (∀ c, s.events.has c = true → (conclude d).events.has c = true) ∧
      (conclude d).events.detail = s.events.detail ∧ (conclude d).monitor.beat = s.monitor.beat ∧
      (conclude d).monitor.last = s.monitor.last := by
  have hfalls := (falls_failAllTags s).trans (taken_falls h)
  obtain ⟨-, hctl, hevents, hmem, hring, hmonitor, -⟩ := conclude_concluded d
  rw [hctl, hevents, hmem, hring, hmonitor]
  exact ⟨hfalls.mem, hfalls.record, hfalls.adminRing, hfalls.events, hfalls.detail, hfalls.beat.1, hfalls.beat.2⟩

/-- Where no request is granted, the conclusion leaves the link but for the requests of slots. -/
theorem conclude_link_withdrawn (hm : s.link.mute) (hq : settleLink (settlePhases d) = refreshRequests (settlePhases d)) :
    (conclude d).link =
      { s.link with tags := Vector.replicate 16 Tag.none, slotRequests := (conclude d).link.slotRequests } := by
  have hlink := (conclude_concluded d).link.trans (congrArg State.link hq :)
  have hrefresh : (refreshRequests (settlePhases d)).link =
    { (settlePhases d).link with slotRequests := (refreshRequests (settlePhases d)).link.slotRequests } := rfl
  rw [hlink, hrefresh, taken_link h hm]

end

/-- Outside ACTIVE, QUIESCING and DRAINING the operating state does not move. -/
theorem conclude_ctl_idle (hw : d.atWork = false) (hd : d.ctl.op ≠ .draining) : (conclude d).ctl = d.ctl := by
  rw [(conclude_concluded d).ctl, settlePhases_off hw (.inl hd)]

theorem notAtWork_of_idle {s : State} (ha : s.ctl.op ≠ .active) (hq : s.ctl.op ≠ .quiescing) : s.atWork = false := by
  simp [State.atWork, ha, hq]

/-! ### LINK_DOWN -/

/-- The link as a link down finds it when every read fails (R173). -/
def State.unplugged (s : State) : State := { s with link := { s.link with up := false, outbound := [] } }

/-- A link down in FLUSH ends it with the deadline's outcome (R158). -/
theorem linkDown_ends_flush {f : State} (hop : f.ctl.op = .draining) (hphase : f.ctl.phase = .flush) :
    (conclude (linkDownTaken f)).ctl.phase = .settle ∧
      (conclude (linkDownTaken f)).ctl.working.outcome = .deadline := by
  have hwork : f.atWork = false := by simp [State.atWork, hop]
  have hd : linkDownTaken f = endFlush f .deadline := by
    rw [linkDownTaken, if_neg (by simp [hwork]), if_pos ⟨hop, hphase⟩]
  obtain ⟨ho, hp, -, -, -, houtcome, -⟩ := endFlush_settles hop .deadline
  rw [(conclude_concluded _).ctl, hd]
  generalize endFlush f .deadline = e at ho hp houtcome
  rw [settlePhases_off (by simp [State.atWork, ho]) (.inr (by simp [hp]))]
  exact ⟨hp, houtcome⟩

theorem linkDownTaken_idle {s : State} (ha : s.ctl.op ≠ .active) (hq : s.ctl.op ≠ .quiescing)
    (hd : s.ctl.op ≠ .draining) : linkDownTaken s = s := by
  rw [linkDownTaken, if_neg (by simp [notAtWork_of_idle ha hq]), if_neg fun e => hd e.1]

theorem linkDown_idle {s : State} (ha : s.ctl.op ≠ .active) (hq : s.ctl.op ≠ .quiescing) (hd : s.ctl.op ≠ .draining) :
    (conclude (linkDownTaken (failAllTags s))).ctl = s.ctl := by
  have hctl := failAllTags_ctl_eq hd
  generalize failAllTags s = f at hctl
  rw [← hctl] at ha hq hd
  rw [linkDownTaken_idle ha hq hd, conclude_ctl_idle (notAtWork_of_idle ha hq) hd, hctl]

/-! ### LINK_RESET -/

/-- The window and the link as a link reset finds them when every read fails (R128, R138, R167, R174). -/
def State.windowReset (s : State) : State :=
  { s with
    link := { s.link with up := true, outbound := [], messageEnable := false, vectors := .one }
    adminRing := .zero
    monitor := { s.monitor with beat := 0, last := .none } }

theorem linkResetTaken_idle {s : State} (ha : s.ctl.op ≠ .active) (hq : s.ctl.op ≠ .quiescing) :
    (linkResetTaken s).ctl =
      { s.ctl with
        resetInExit := s.ctl.resetInExit || (decide (s.ctl.op = .retained) && decide (s.memState = .exiting)) } := by
  rw [linkResetTaken, if_neg (by simp [notAtWork_of_idle ha hq])]
  by_cases h : s.ctl.op = .retained ∧ s.memState = .exiting
  · rw [if_pos h]
    simp [h.1, h.2]
  · rw [if_neg h]
    have hno : (decide (s.ctl.op = .retained) && decide (s.memState = .exiting)) = false := by simpa using h
    rw [hno, Bool.or_false]

theorem linkReset_idle {s : State} (ha : s.ctl.op ≠ .active) (hq : s.ctl.op ≠ .quiescing) (hd : s.ctl.op ≠ .draining) :
    (conclude (linkResetTaken (failAllTags s))).ctl =
      { s.ctl with
        resetInExit := s.ctl.resetInExit || (decide (s.ctl.op = .retained) && decide (s.memState = .exiting)) } := by
  have hctl := failAllTags_ctl_eq hd
  have hmem : (failAllTags s).memState = s.memState := by
    obtain ⟨ps, a, cs, w, ss, fs, f, e, q, ts, h⟩ := failAllTags_eq s
    exact (congrArg State.memState h :)
  generalize failAllTags s = f at hctl hmem
  rw [← hctl] at ha hq hd ⊢
  rw [← hmem]
  have htaken := linkResetTaken_idle ha hq
  have hop : (linkResetTaken f).ctl.op = f.ctl.op := (congrArg Controller.op htaken :)
  generalize linkResetTaken f = d at htaken hop
  rw [← hop] at ha hq hd
  rw [conclude_ctl_idle (notAtWork_of_idle ha hq) hd, htaken]

/-- The channel law: outside ACTIVE and QUIESCING no slot is in RUN (R72, R157). -/
theorem not_run_of_channelLaw {s : State} (h : s.ChannelLaw) : s.atWork = true ∨ ∀ k, (s.slot k).state ≠ .run := by
  by_cases hw : s.atWork = true
  · exact .inl hw
  · refine .inr fun k hk => ?_
    obtain ⟨-, e | ⟨-, -, e⟩⟩ := h.2 k ⟨by rw [hk]; exact SlotState.noConfusion, fun e => by rw [hk] at e; cases e⟩
    · exact hw e
    · rw [hk] at e
      cases e

/-- A link reset leaves no request of a slot, where no slot in RUN outlives it. -/
theorem linkReset_link {s d : State} (h : s.Taken d) (hm : s.link.mute)
    (hrun : s.atWork = true ∨ ∀ k, (s.slot k).state ≠ .run) :
    (conclude d).link =
      { s.link with tags := Vector.replicate 16 Tag.none, slotRequests := Vector.replicate 4 false } := by
  have hs := taken_not_run h hrun
  have hq := settleLink_withdrawn (.inr ⟨taken_not_active h, hs⟩)
  rw [(conclude_concluded d).link, hq, refreshRequests_of_not_run hs, taken_link h hm]

/-- A grant after the reads have failed leaves the link but for tags and requests, and quarantines no tag. -/
theorem taken_link_granted {s d : State} (h : s.Taken d) (hm : s.link.mute) :
    (conclude d).link.besideTags = s.link.besideTags ∧ ∀ g, ((conclude d).tag g).state ≠ .quarantined := by
  have hp := taken_link h hm
  have hlink := (conclude_concluded d).link
  generalize settlePhases d = p at hp hlink
  generalize conclude d = t at hlink
  have hbeside : (settleLink p).link.besideTags = p.link.besideTags :=
    (congrArg State.link (besideTags_settleLink p) :)
  refine ⟨by rw [hlink, hbeside, hp]; rfl, fun g => ?_⟩
  have htag : t.tag g = (settleLink p).tag g := congrArg (fun l : Link => l.tags.get g) hlink
  have hfree : (p.tag g).state = .free := by
    have : p.tag g = Tag.none := (congrArg (fun l : Link => l.tags.get g) hp).trans (get_replicate _ _)
    rw [this]
    rfl
  rw [htag]
  obtain e | ⟨-, e⟩ := settleLink_tagState p g <;> rw [e]
  · rw [hfree]
    exact TagState.noConfusion
  · exact TagState.noConfusion

/-! ### The obligation -/

theorem linkUp_exec {s : State} (hcore : s.power.core = true) (hup : s.link.up = false) :
    exec .linkUp s = .next (settleLink { s with link := { s.link with up := true } }) :=
  congrArg Host.Outcome.next (if_pos ⟨hcore, hup⟩)

theorem linkDown_exec {s : State} (hcore : s.power.core = true) (hup : s.link.up = true) :
    exec .linkDown s = .next (conclude (linkDownTaken (failAllTags s.unplugged))) :=
  congrArg Host.Outcome.next (if_pos (by simp [State.reached, hcore, hup]))

theorem linkReset_exec {s : State} (hcore : s.power.core = true) :
    exec .linkReset s = .next (conclude (linkResetTaken (failAllTags s.windowReset))) :=
  congrArg Host.Outcome.next (if_pos hcore)

/-- Settles O31: every read has failed before the drain starts or the state stays, and neither the drain's passages nor
a grant undoes what the holders were told. -/
theorem linkChanges : Obligations.LinkChanges := by
  unfold Obligations.LinkChanges
  intro s hcore working told idle
  refine ⟨fun hup => ⟨_, linkUp_exec hcore hup, rfl, besideTags_settleLink _⟩, fun hup => ?_, ?_⟩
  · have htaken := linkDownTaken_taken s.unplugged
    have hmute : s.unplugged.link.mute := .inl rfl
    have htold := taken_told htaken
    obtain ⟨hmem, hrecord, hring, hevents, -⟩ := taken_kept htaken
    have hdown : (settlePhases (linkDownTaken (failAllTags s.unplugged))).link.up = false :=
      (congrArg Link.up (taken_link htaken hmute) :)
    have hlink := conclude_link_withdrawn htaken hmute (settleLink_withdrawn (.inl hdown))
    have hflush : s.ctl.op = .draining → s.ctl.phase = .flush → _ := fun ho hp =>
      linkDown_ends_flush (f := failAllTags s.unplugged)
        (by obtain ⟨w, h⟩ := failAllTags_ctl s.unplugged; rw [h]; exact ho)
        (by obtain ⟨w, h⟩ := failAllTags_ctl s.unplugged; rw [h]; exact hp)
    have hidle : idle → _ := fun h => linkDown_idle (s := s.unplugged) h.1 h.2.1 h.2.2
    refine ⟨_, linkDown_exec hcore hup, ?_⟩
    generalize conclude (linkDownTaken (failAllTags s.unplugged)) = t at *
    exact ⟨htold, hlink, hmem, hrecord, hring, hevents, hflush, hidle⟩
  · have htaken := linkResetTaken_taken s.windowReset
    have hmute : s.windowReset.link.mute := .inr rfl
    have htold := taken_told htaken
    obtain ⟨hmem, hrecord, hring, hevents, hdetail, hbeat, hlast⟩ := taken_kept htaken
    obtain ⟨hbeside, hquarantine⟩ := taken_link_granted htaken hmute
    have hlink := fun hlaw : s.ChannelLaw => linkReset_link htaken hmute (not_run_of_channelLaw hlaw)
    have hidle : idle → _ := fun h => linkReset_idle (s := s.windowReset) h.1 h.2.1 h.2.2
    refine ⟨_, linkReset_exec hcore, ?_⟩
    generalize conclude (linkResetTaken (failAllTags s.windowReset)) = t at *
    exact ⟨htold, (congrArg Link.up hbeside :), (congrArg Link.messageEnable hbeside :),
      (congrArg Link.vectors hbeside :), (congrArg Link.timeoutMs hbeside :), hquarantine, hlink,
      (congrArg AdminRingRegister.submissionBase hring :), (congrArg AdminRingRegister.completionBase hring :),
      (congrArg AdminRingRegister.size hring :), hbeat, hlast, hdetail, hevents, hmem, hrecord, hidle⟩

end Sys2Proof.Machine
end

section
/-! SUPPORT. Where each command stores (R55, R105 to R107): the bytes of a write burst, the word of a read-modify-write,
the line of a scrub, and, but for power-on, nothing by any other command. -/

-- One theorem at a time, as in the tests above: fewer threads than the memory limit allows.
set_option Elab.async false

namespace Sys2Proof.Machine

/-! ### The words of a read (R103) -/

@[simp] theorem wordBytes_length (m : List Host.Cell) (w : Nat × Finding) : (wordBytes m w).length = 8 := by
  unfold wordBytes
  split <;> simp

/-- Word `n` of a read is paired with finding `n`, and reads as last written where the findings end before it. -/
theorem pairFindings_eq (ws : List Nat) (fs : List Finding) :
    pairFindings ws fs = ws.zipIdx.map fun w => (w.1, fs.getD w.2 Finding.asWritten) := by
  induction ws generalizing fs with
  | nil => rfl
  | cons a r ih =>
    rw [List.zipIdx_cons', List.map_cons, List.map_map]
    cases fs with
    | nil => simp [pairFindings, ih, Function.comp_def]
    | cons f fs => simp [pairFindings, ih, Function.comp_def]

@[simp] theorem pairFindings_length (ws : List Nat) (fs : List Finding) : (pairFindings ws fs).length = ws.length := by
  simp [pairFindings_eq]

theorem flatMap_wordBytes_length (m : List Host.Cell) (ws : List (Nat × Finding)) :
    (ws.flatMap (wordBytes m)).length = 8 * ws.length := by
  induction ws with
  | nil => rfl
  | cons w ws ih => simp [ih, Nat.mul_add, Nat.add_comm]

/-! ### What a command stores -/

/-- Buffer memory after the command is memory before it with consecutive bytes stored, each of them at an address that
the command stores to. -/
def State.Stores (s : State) (i : Instr) (t : State) : Prop :=
  ∃ a bs, t.mem = Memory.writeBytes s.mem a bs ∧ ∀ c, a ≤ c → c < a + bs.length → s.storesTo c i

theorem stores_of_mem {s t : State} {i : Instr} (h : t.mem = s.mem) : s.Stores i t :=
  ⟨0, [], h, fun c _ hc => absurd hc (Nat.not_lt_zero c)⟩

theorem stores_of_answers {s t : State} {i : Instr} {o : Out} (ha : s.Answers o) (h : o = .next t) : s.Stores i t := by
  obtain ⟨u, hu, hk⟩ := ha
  obtain rfl : u = t := Host.Outcome.next.inj (hu.symm.trans h)
  exact stores_of_mem hk.mem

/-- DEFINE_PARTITION changes an entry of the table, and no byte of memory (R12, R13). -/
theorem definePartition_mem {s t : State} (h : execDefinePartition s = .next t) : t.mem = s.mem := by
  have hbody : ∀ (u : State) (r : Record), (withPartition u r (definePart u r)).state.mem = u.mem := fun u r => by
    unfold withPartition
    split
    · exact (keeps_refused u _).mem
    split
    · exact (keeps_refused u _).mem
    · rename_i j _
      obtain ⟨st, e⟩ | ⟨p, -, e⟩ := definePart_cases u r j
      · exact e ▸ (keeps_refused u st).mem
      · exact e ▸ (keeps_handOverAdmin (u.setPart j p) .ok 0).mem
  unfold execDefinePartition takeCommand at h
  split at h
  · cases h; rfl
  split at h
  · cases h
    exact (keeps_settleLink _).mem.trans (hbody _ _)
  · cases h; rfl

theorem readBurst_mem {s t : State} {fs : List Finding} (h : execReadBurst fs s = .next t) : t.mem = s.mem := by
  unfold execReadBurst at h
  split at h
  · cases h; rfl
  split at h
  · cases h; rfl
  split at h
  · cases h; exact (keeps_readBurstEnd _ _ _ _).mem
  · cases h

theorem writeBurst_stores {s t : State} (h : execWriteBurst s = .next t) : s.Stores .writeBurst t := by
  unfold execWriteBurst at h
  split at h
  · cases h; exact stores_of_mem rfl
  split at h
  · cases h; exact stores_of_mem rfl
  · rename_i k o ho
    split at h
    · cases h
      exact ⟨o.addr, opData (s.slot k) o, (keeps_writeBurstEnd s k o).mem, fun c hlow hhigh => ⟨k, o, ho, hlow, hhigh⟩⟩
    · cases h

theorem readModifyWrite_stores {s t : State} {f : Finding} (h : execReadModifyWrite f s = .next t) :
    s.Stores (.readModifyWrite f) t := by
  unfold execReadModifyWrite at h
  split at h
  · cases h; exact stores_of_mem rfl
  split at h
  · cases h; exact stores_of_mem rfl
  · rename_i k o ho
    split at h
    · cases h
      by_cases hf : f.condition = .uncorrectable
      · simp only [hf, if_true]
        exact stores_of_mem (keeps_rmwFailed s k o _).mem
      · simp only [hf, if_false]
        exact ⟨o.addr / 8 * 8, _, (keeps_rmwWritten s k o _).mem, fun c hlow hhigh => ⟨k, o, ho, hf, hlow, hhigh⟩⟩
    · cases h

/-- A scrub line writes its line back where a word was corrected and none was uncorrectable (R107). -/
theorem scrubLineEnd_mem (s : State) (fs : List Finding) :
    let ws := pairFindings (wordAddresses s.scrub.pointer 64) (fs.take 8)
    (scrubLineEnd s fs).mem =
      if scrubWrites ws then Memory.writeBytes s.mem s.scrub.pointer (ws.flatMap (wordBytes s.mem)) else s.mem := by
  intro ws
  refine (keeps_settlePort _).mem.trans ((keeps_reportFindings _ _).mem.trans ?_)
  show State.mem (if scrubWrites ws then _ else _) = _
  split <;> rfl

theorem scrubLine_stores {s t : State} {fs : List Finding} (h : execScrubLine fs s = .next t) :
    s.Stores (.scrubLine fs) t := by
  unfold execScrubLine at h
  split at h
  · rename_i hport
    split at h
    · cases h
      have hmem := scrubLineEnd_mem s fs
      by_cases hw : scrubWrites (pairFindings (wordAddresses s.scrub.pointer 64) (fs.take 8)) = true
      · refine ⟨s.scrub.pointer, _, hmem.trans (if_pos hw), fun c hlow hhigh => ⟨hport.2, hlow, ?_⟩⟩
        rwa [flatMap_wordBytes_length, pairFindings_length] at hhigh
      · exact stores_of_mem (hmem.trans (if_neg hw))
    · cases h
  · cases h; exact stores_of_mem rfl

/-- Every command but power-on stores at most where `State.storesTo` says. -/
theorem exec_stores {i : Instr} {s t : State} (hi : i ≠ .powerOn) (h : exec i s = .next t) : s.Stores i t := by
  cases i with
  | powerOn => exact absurd rfl hi
  | writeBurst => exact writeBurst_stores h
  | readModifyWrite f => exact readModifyWrite_stores h
  | scrubLine fs => exact scrubLine_stores h
  | readBurst fs => exact stores_of_mem (readBurst_mem h)
  | definePartition => exact stores_of_mem (definePartition_mem h)
  | pwrWarnDeasserted | mainPowerReturn | registerWriteIgnored => cases h; exact stores_of_mem rfl
  | memoryInitialisation success => exact stores_of_answers (answers_memoryInitialisation success s) h
  | warmStart => exact stores_of_answers (answers_warmStart s) h
  | coreLogicPowerDown => exact stores_of_answers (answers_coreLogicPowerDown s) h
  | pwrWarnAsserted => exact stores_of_answers (answers_pwrWarnAsserted s) h
  | mainPowerLoss => exact stores_of_answers (answers_mainPowerLoss s) h
  | backupSupplyFailure => exact stores_of_answers (answers_backupSupplyFailure s) h
  | linkDown => exact stores_of_answers (answers_linkDown s) h
  | linkUp => exact stores_of_answers (answers_linkUp s) h
  | linkReset => exact stores_of_answers (answers_linkReset s) h
  | hostReadData g bs => exact stores_of_answers (answers_hostReadData g bs s) h
  | readErrorReturn g => exact stores_of_answers (answers_readErrorReturn g s) h
  | linkReadTimeout g => exact stores_of_answers (answers_linkReadTimeout g s) h
  | quarantineEnd g => exact stores_of_answers (answers_quarantineEnd g s) h
  | messageEnable e g => exact stores_of_answers (answers_messageEnable e g s) h
  | enable => exact stores_of_answers (answers_enable s) h
  | quiesce => exact stores_of_answers (answers_quiesce s) h
  | functionReset => exact stores_of_answers (answers_functionReset s) h
  | adminRingWrite f p v => exact stores_of_answers (answers_adminRingWrite f p v s) h
  | notifySqTail r n => exact stores_of_answers (answers_notifySqTail r n s) h
  | notifyCqHead r n => exact stores_of_answers (answers_notifyCqHead r n s) h
  | heartbeatWrite v => exact stores_of_answers (answers_heartbeatWrite v s) h
  | eventsWrite v => exact stores_of_answers (answers_eventsWrite v s) h
  | freezePartition => exact stores_of_answers (answers_freezePartition s) h
  | releasePartition => exact stores_of_answers (answers_releasePartition s) h
  | clearTorn => exact stores_of_answers (answers_clearTorn s) h
  | getPartitions => exact stores_of_answers (answers_getPartitions s) h
  | createChannel => exact stores_of_answers (answers_createChannel s) h
  | deleteChannel => exact stores_of_answers (answers_deleteChannel s) h
  | pauseChannel => exact stores_of_answers (answers_pauseChannel s) h
  | resumeChannel => exact stores_of_answers (answers_resumeChannel s) h
  | createCq => exact stores_of_answers (answers_createCq s) h
  | deleteCq => exact stores_of_answers (answers_deleteCq s) h
  | setRefresh => exact stores_of_answers (answers_setRefresh s) h
  | setScrub => exact stores_of_answers (answers_setScrub s) h
  | getHealth => exact stores_of_answers (answers_getHealth s) h
  | clearErrors => exact stores_of_answers (answers_clearErrors s) h
  | setMonitor => exact stores_of_answers (answers_setMonitor s) h
  | setLinkTimeout => exact stores_of_answers (answers_setLinkTimeout s) h
  | setDrain => exact stores_of_answers (answers_setDrain s) h
  | enterRetention => exact stores_of_answers (answers_enterRetention s) h
  | getRetentionRecord => exact stores_of_answers (answers_getRetentionRecord s) h
  | claimRetained => exact stores_of_answers (answers_claimRetained s) h
  | discardRetained => exact stores_of_answers (answers_discardRetained s) h
  | unknownCommand => exact stores_of_answers (answers_unknownCommand s) h
  | slotSchedulerChoice => exact stores_of_answers (answers_slotSchedulerChoice s) h
  | presentation k => exact stores_of_answers (answers_presentation k s) h
  | refresh => exact stores_of_answers (answers_refresh s) h
  | selfRefreshEntry => exact stores_of_answers (answers_selfRefreshEntry s) h
  | selfRefreshExit => exact stores_of_answers (answers_selfRefreshExit s) h
  | intervalExpiry => exact stores_of_answers (answers_intervalExpiry s) h
  | scrubTick => exact stores_of_answers (answers_scrubTick s) h
  | delayTimerExpiry r => exact stores_of_answers (answers_delayTimerExpiry r s) h
  | periodTimerExpiry => exact stores_of_answers (answers_periodTimerExpiry s) h
  | graceTimerExpiry => exact stores_of_answers (answers_graceTimerExpiry s) h
  | drainDeadlineExpiry => exact stores_of_answers (answers_drainDeadlineExpiry s) h
  | completionWrite r => exact stores_of_answers (answers_completionWrite r s) h
  | completionDiscard src => exact stores_of_answers (answers_completionDiscard src s) h
  | deleteConversion c => exact stores_of_answers (answers_deleteConversion c s) h

/-- Settles O17: an address that the command does not store to lies outside the bytes it stores. -/
theorem memoryWrittenOnlyByPort : Obligations.MemoryWrittenOnlyByPort := by
  intro i s t c hs hi h hc
  obtain ⟨a, bs, hmem, hstored⟩ := exec_stores hi h
  have hout : c < a ∨ a + bs.length ≤ c := by
    by_contra hin
    exact hc (hstored c (by omega) (by omega))
  rw [hmem, read_writeBytes_outside hs hout]

end Sys2Proof.Machine
end

section
/-! SUPPORT. Descriptor fields (R177), ranges and their pieces (R52, R54), the port operations of a piece (R55), the ECC
words and lines that an operation reaches (R55, R104, R105), and the CRC of one byte (R63). -/

-- One theorem at a time, as in the tests above: fewer threads than the memory limit allows.
set_option Elab.async false

namespace Sys2Proof.Machine

/-! ### Fields of a descriptor (R177) -/

theorem field_toNat {w : Nat} (x : BitVec w) (start len : Nat) :
    (x.extractLsb' start len).toNat = x.toNat / 2 ^ start % 2 ^ len := by
  rw [BitVec.extractLsb'_toNat, Nat.shiftRight_eq_div_pow]

theorem wordAt_toNat (r : Record) (n : Nat) : (wordAt r n).toNat = r.toNat / 2 ^ (8 * n) % 2 ^ 32 := field_toNat r _ _

theorem longAt_toNat (r : Record) (n : Nat) : (longAt r n).toNat = r.toNat / 2 ^ (8 * n) % 2 ^ 64 := field_toNat r _ _

/-- A field of a field is a field of the whole. -/
theorem field_of_field {w : Nat} (x : BitVec w) (start width from' len : Nat) (h : from' + len ≤ width) :
    (x.extractLsb' start width).extractLsb' from' len = x.extractLsb' (start + from') len := by
  ext i hi
  have hin : from' + i < width := by omega
  simp [BitVec.getElem_extractLsb', hin, Nat.add_assoc]

/-- The kinds in the order of their codes (R177). -/
theorem descKind_eq_getD (r : Record) :
    descKind r =
      [none, some .writeIn, some .readOut, some .copy, some .fill, some .checksum, some .mark].getD (byteAt r 0).toNat
        none := by
  unfold descKind
  generalize (byteAt r 0).toNat = code
  match code with
  | 0 | 1 | 2 | 3 | 4 | 5 | 6 => rfl
  | _ + 7 => rfl

theorem bufferRef_fields (r : Record) (n : Nat) :
    (bufferRef (longAt r n)).offset = r.toNat / 2 ^ (8 * n) % 2 ^ 40 ∧
      (bufferRef (longAt r n)).generation.toNat = r.toNat / 2 ^ (8 * n + 40) % 256 ∧
      (bufferRef (longAt r n)).partition.toNat = r.toNat / 2 ^ (8 * n + 48) % 256 := by
  have hfield : ∀ from' len, from' + len ≤ 64 →
      ((longAt r n).extractLsb' from' len).toNat = r.toNat / 2 ^ (8 * n + from') % 2 ^ len := fun from' len h => by
    rw [longAt, field_of_field r _ _ _ _ h, field_toNat]
  exact ⟨hfield 0 40 (by omega), hfield 40 8 (by omega), hfield 48 8 (by omega)⟩

/-! ### Ranges and pieces (R52, R54) -/

theorem refAddress_named {s : State} {r : BufferRef} {i : Fin 16} (h : r.partition.toNat = i.val) :
    refAddress s r = (s.part i).base * 4096 + r.offset := by
  simp only [refAddress, partitionIndex_eq_some.mpr h]

/-- The next 256-byte boundary lies at most 256 bytes on, and no boundary before it. -/
theorem toBoundary_spec (a : Nat) :
    1 ≤ toBoundary a ∧ toBoundary a ≤ 256 ∧ (a + toBoundary a) % 256 = 0 ∧
      ∀ i, 0 < i → i < toBoundary a → (a + i) % 256 ≠ 0 := by
  unfold toBoundary
  exact ⟨by omega, by omega, by omega, fun i h0 h1 => by omega⟩

/-- A piece ends at the end of the range or at the first cut after its beginning (R54). -/
theorem pieceLength_spec (s : State) (sl : Slot) {p : Nat} (hp : p < descLength sl.entry) :
    let n := pieceLength s sl p
    let cut := fun q : Nat =>
      (rangeA s sl + q) % 256 = 0 ∨ (descKind sl.entry = some .copy ∧ (rangeB s sl + q) % 256 = 0)
    1 ≤ n ∧ n ≤ 256 ∧ p + n ≤ descLength sl.entry ∧ (∀ i < n, 0 < i → ¬cut (p + i)) ∧
      (p + n = descLength sl.entry ∨ cut (p + n)) := by
  obtain ⟨ha1, ha2, ha, haIn⟩ := toBoundary_spec (rangeA s sl + p)
  obtain ⟨hb1, hb2, hb, hbIn⟩ := toBoundary_spec (rangeB s sl + p)
  simp only [Nat.add_assoc] at ha haIn hb hbIn
  by_cases hcopy : descKind sl.entry = some .copy
  · have hn : pieceLength s sl p =
        min (descLength sl.entry - p) (min (toBoundary (rangeA s sl + p)) (toBoundary (rangeB s sl + p))) := by
      simp only [pieceLength, if_pos hcopy]
    intro n cut
    refine ⟨by omega, by omega, by omega, fun i hi h0 => ?_, ?_⟩
    · exact not_or.mpr ⟨haIn i h0 (by omega), fun h => hbIn i h0 (by omega) h.2⟩
    · obtain h | h | h : n = descLength sl.entry - p ∨ n = toBoundary (rangeA s sl + p) ∨
          n = toBoundary (rangeB s sl + p) := by omega
      · exact .inl (by omega)
      · exact .inr (.inl (h ▸ ha))
      · exact .inr (.inr ⟨hcopy, h ▸ hb⟩)
  · have hn : pieceLength s sl p = min (descLength sl.entry - p) (toBoundary (rangeA s sl + p)) := by
      simp only [pieceLength, if_neg hcopy]
    intro n cut
    refine ⟨by omega, by omega, by omega, fun i hi h0 => ?_, ?_⟩
    · exact not_or.mpr ⟨haIn i h0 (by omega), fun h => hcopy h.1⟩
    · obtain h | h : n = descLength sl.entry - p ∨ n = toBoundary (rangeA s sl + p) := by omega
      · exact .inl (by omega)
      · exact .inr (.inl (h ▸ ha))

/-! ### The operations that write a piece (R55) -/

/-- The bytes of the head: those before the first whole ECC word. -/
def headLength (addr len : Nat) : Nat := if addr % 8 = 0 then 0 else min len (8 - addr % 8)

/-- The bytes of the body: the whole ECC words after the head. -/
def bodyLength (addr len : Nat) : Nat := (len - headLength addr len) / 8 * 8

/-- Head, body and tail, the empty ones among them. -/
def writeParts (pos addr len : Nat) : List SlotOp :=
  let h := headLength addr len
  let b := bodyLength addr len
  [{ kind := .rmw, pos := pos, addr := addr, len := h },
    { kind := .write, pos := pos + h, addr := addr + h, len := b },
    { kind := .rmw, pos := pos + h + b, addr := addr + h + b, len := len - h - b }]

theorem filter_three (a b c : SlotOp) :
    [a, b, c].filter (fun o => o.len ≠ 0) =
      (if a.len = 0 then [] else [a]) ++ (if b.len = 0 then [] else [b]) ++ (if c.len = 0 then [] else [c]) := by
  have hone : ∀ o : SlotOp, (if o.len = 0 then [] else [o]) = [o].filter fun q => q.len ≠ 0 := fun o => by
    by_cases h : o.len = 0 <;> simp [h]
  rw [hone a, hone b, hone c, ← List.filter_append, ← List.filter_append]
  rfl

/-- The operations of a piece are the parts that are not empty. -/
theorem writeOps_eq_filter (pos addr len : Nat) :
    writeOps pos addr len = (writeParts pos addr len).filter fun o => o.len ≠ 0 := by
  rw [writeParts, filter_three]
  rfl

theorem sum_filter_len (l : List SlotOp) :
    ((l.filter fun o => o.len ≠ 0).map SlotOp.len).sum = (l.map SlotOp.len).sum := by
  induction l with
  | nil => rfl
  | cons o l ih => by_cases h : o.len = 0 <;> simp_all

/-- Where head, body and tail lie. -/
theorem writeParts_spec (addr len : Nat) :
    headLength addr len < 8 ∧ headLength addr len + bodyLength addr len ≤ len ∧ bodyLength addr len % 8 = 0 ∧
      len - headLength addr len - bodyLength addr len < 8 ∧
      (headLength addr len = len ∨ (addr + headLength addr len) % 8 = 0) ∧
      (addr % 8 + headLength addr len ≤ 8) := by
  unfold bodyLength headLength
  split <;> omega

theorem writeOps_pairwise (pos addr len : Nat) :
    (writeOps pos addr len).Pairwise fun o q => o.addr + o.len ≤ q.addr := by
  rw [writeOps_eq_filter]
  refine List.Pairwise.filter _ ?_
  simp only [writeParts, List.pairwise_cons, List.mem_cons, List.not_mem_nil, or_false, forall_eq_or_imp, forall_eq]
  refine ⟨⟨by omega, by omega⟩, by omega, by simp, .nil⟩

theorem writeOps_sum (pos addr len : Nat) : ((writeOps pos addr len).map SlotOp.len).sum = len := by
  obtain ⟨-, hle, -⟩ := writeParts_spec addr len
  rw [writeOps_eq_filter, sum_filter_len]
  simp only [writeParts, List.map_cons, List.map_nil, List.sum_cons, List.sum_nil]
  omega

theorem writeOps_length (pos addr : Nat) {len : Nat} (h : 1 ≤ len) :
    1 ≤ (writeOps pos addr len).length ∧ (writeOps pos addr len).length ≤ 3 := by
  refine ⟨?_, ?_⟩
  · have hsum := writeOps_sum pos addr len
    by_contra hlen
    rw [List.eq_nil_of_length_eq_zero (by omega : (writeOps pos addr len).length = 0)] at hsum
    exact absurd hsum (by simp; omega)
  · rw [writeOps_eq_filter]
    exact List.length_filter_le _ _

/-- Each operation lies in the piece, and is a burst of whole words or lies inside one word without filling it (R55). -/
theorem writeOps_mem {pos addr len : Nat} {o : SlotOp} (ho : o ∈ writeOps pos addr len) :
    1 ≤ o.len ∧ addr ≤ o.addr ∧ o.addr + o.len ≤ addr + len ∧ o.addr - addr = o.pos - pos ∧ pos ≤ o.pos ∧
      ((o.kind = .write ∧ o.addr % 8 = 0 ∧ o.len % 8 = 0) ∨
        (o.kind = .rmw ∧ o.len < 8 ∧ o.addr / 8 = (o.addr + o.len - 1) / 8)) := by
  rw [writeOps_eq_filter, List.mem_filter] at ho
  obtain ⟨hmem, hlen⟩ := ho
  have hpos : o.len ≠ 0 := by simpa using hlen
  obtain ⟨hh8, hle, hb8, ht8, halign, hhead⟩ := writeParts_spec addr len
  simp only [writeParts, List.mem_cons, List.not_mem_nil, or_false] at hmem
  obtain rfl | rfl | rfl := hmem <;> simp only at hpos ⊢
  · exact ⟨by omega, le_refl _, by omega, by omega, le_refl _, .inr ⟨trivial, hh8, by omega⟩⟩
  · exact ⟨by omega, by omega, by omega, by omega, by omega, .inl ⟨trivial, by omega, hb8⟩⟩
  · exact ⟨by omega, by omega, by omega, by omega, by omega, .inr ⟨trivial, ht8, by omega⟩⟩

/-! ### Words and lines (R55, R103 to R105) -/

theorem mem_wordAddresses {addr len a : Nat} (hlen : 1 ≤ len) :
    a ∈ wordAddresses addr len ↔ a % 8 = 0 ∧ a < addr + len ∧ addr < a + 8 := by
  simp only [wordAddresses, List.mem_map, List.mem_range]
  constructor
  · rintro ⟨i, hi, rfl⟩
    omega
  · rintro ⟨h8, hhigh, hlow⟩
    exact ⟨a / 8 - addr / 8, by omega, by omega⟩

theorem mem_wholeLines {addr len a : Nat} :
    a ∈ wholeLines addr len ↔ a % 64 = 0 ∧ addr ≤ a ∧ a + 64 ≤ addr + len := by
  simp only [wholeLines, List.mem_filter, List.mem_map, List.mem_range, decide_eq_true_eq]
  constructor
  · rintro ⟨⟨i, hi, rfl⟩, hin⟩
    omega
  · rintro ⟨h64, hlow, hhigh⟩
    exact ⟨⟨a / 64 - (addr + 63) / 64, by omega, by omega⟩, hhigh⟩

theorem mem_eraseRepsBy_loop {x a : Nat} (l acc : List Nat) :
    x ∈ List.eraseRepsBy.loop (· == ·) a l acc ↔ x = a ∨ x ∈ l ∨ x ∈ acc := by
  induction l generalizing a acc with
  | nil => simp [List.eraseRepsBy.loop, or_comm]
  | cons b l ih =>
    unfold List.eraseRepsBy.loop
    split
    · rename_i hab
      obtain rfl : a = b := by simpa using hab
      rw [ih, List.mem_cons]
      tauto
    · rw [ih, List.mem_cons, List.mem_cons]
      tauto

/-- Repetitions erased, the members stay. -/
theorem mem_eraseReps {x : Nat} {l : List Nat} : x ∈ l.eraseReps ↔ x ∈ l := by
  cases l with
  | nil => rfl
  | cons a l => exact (mem_eraseRepsBy_loop l []).trans (by simp)

theorem mem_badLines {ws : List (Nat × Finding)} {a : Nat} :
    a ∈ badLines ws ↔ ∃ w ∈ ws, w.2.condition = .uncorrectable ∧ a = w.1 / 64 * 64 := by
  simp only [badLines, mem_eraseReps, List.mem_map, List.mem_filter, beq_iff_eq, lineOf, and_assoc]
  exact exists_congr fun w => and_congr_right fun _ => and_congr_right fun _ => eq_comm

/-! ### The obligation -/

/-- Settles O22, clause by clause. -/
theorem piecesAndOperations : Obligations.PiecesAndOperations := by
  refine ⟨fun r => ?_, fun k => ?_, fun s sl i => ⟨fun h => refAddress_named h, fun h => refAddress_named h⟩,
    fun s sl p hp => pieceLength_spec s sl hp, fun pos addr len hlen => ?_, fun addr len a h => mem_wordAddresses h,
    fun addr len a => mem_wholeLines, fun ws a => mem_badLines, fun x b => rfl⟩
  · have hkind : (byteAt r 0).toNat = r.toNat % 256 := by
      rw [byteAt, field_toNat, Nat.mul_zero, Nat.pow_zero, Nat.div_one]
      rfl
    have hnotify : (byteAt r 1).getLsbD 0 = decide (r.toNat / 2 ^ 8 % 2 = 1) := by
      rw [byteAt, BitVec.getLsbD_extractLsb', ← BitVec.testBit_toNat, Nat.testBit_eq_decide_div_mod_eq]
      rfl
    refine ⟨hkind ▸ descKind_eq_getD r, hnotify, wordAt_toNat r 4, wordAt_toNat r 8, longAt_toNat r 32,
      by simp only [longAt_toNat, Nat.reduceMul], by simp only [wordAt_toNat, Nat.reduceMul], ?_⟩
    simp only [List.mem_cons, List.not_mem_nil, or_false, forall_eq_or_imp, forall_eq]
    exact ⟨bufferRef_fields r 16, bufferRef_fields r 24⟩
  · cases k <;> simp [Kind.writes]
  · obtain ⟨hone, hthree⟩ := writeOps_length pos addr hlen
    exact ⟨hone, hthree, writeOps_sum pos addr len, writeOps_pairwise pos addr len, fun o => writeOps_mem⟩

end Sys2Proof.Machine
end

section
/-! SUPPORT. How a slot moves on (R48, R56 to R62, R68) and what a stop request does to it (R71 to R75). -/

-- One theorem at a time, as in the tests above: fewer threads than the memory limit allows.
set_option Elab.async false

namespace Sys2Proof.Machine

/-! ### The piece a slot begins (R57 to R62) -/

/-- The slot writes the first piece in hand where that piece is the next to deliver (R55, R58). -/
theorem beginWrite_next (s : State) {sl : Slot} {p : Piece} (hp : p ∈ sl.inHand.head?) (hpos : p.pos = sl.bytesDone) :
    beginWrite s sl =
      { sl with ops := writeOps p.pos (rangeA s sl + p.pos) p.data.length, port := .waiting } := by
  obtain ⟨rest, hin⟩ := List.head?_eq_some_iff.mp hp
  simp only [beginWrite, hin, hpos, if_true]

/-- With a gap before the first piece in hand, or with none, the slot begins nothing. -/
theorem beginWrite_gap (s : State) {sl : Slot} (h : ∀ p ∈ sl.inHand.head?, p.pos ≠ sl.bytesDone) :
    beginWrite s sl = sl := by
  cases hin : sl.inHand with
  | nil => simp only [beginWrite, hin]
  | cons p rest =>
    have hpos : p.pos ≠ sl.bytesDone := h p (by rw [hin]; rfl)
    simp only [beginWrite, hin, if_neg hpos]

/-- A FILL makes the bytes of its piece from its pattern, and writes them (R61). -/
theorem beginFill_eq (s : State) {sl : Slot} (h : sl.nextPiece = sl.bytesDone) :
    beginFill s sl =
      { sl with
        nextPiece := sl.nextPiece + pieceLength s sl sl.nextPiece, port := .waiting
        inHand :=
          [{ pos := sl.nextPiece
             data := (List.range (pieceLength s sl sl.nextPiece)).map fun j =>
               (longAt sl.entry 40).extractLsb' (8 * ((sl.nextPiece + j) % 8)) 8 }]
        ops := writeOps sl.nextPiece (rangeA s sl + sl.nextPiece) (pieceLength s sl sl.nextPiece) } := by
  rw [beginFill, beginWrite_next s rfl h]
  simp only [patternBytes, List.length_map, List.length_range]
  rfl

/-! ### A slot in RUN moves on (R48, R58) -/

theorem runSlot_ends {s : State} {k : Fin 4} (hd : descLength (s.slot k).entry ≤ (s.slot k).bytesDone) :
    runSlot s k = endSlot (s.setSlot k { s.slot k with state := .ending, cause := .complete }) k .ok := by
  simp only [runSlot, hd, if_true]

theorem runSlot_waits {s : State} {k : Fin 4} (hd : (s.slot k).bytesDone < descLength (s.slot k).entry)
    (hp : (s.slot k).port ≠ .none) : runSlot s k = s := by
  simp only [runSlot, Nat.not_le.mpr hd, hp, if_false]

theorem runSlot_asks {s : State} {k : Fin 4} (hd : (s.slot k).bytesDone < descLength (s.slot k).entry)
    (hp : (s.slot k).port = .none) (ho : (s.slot k).ops ≠ []) :
    runSlot s k = s.setSlot k { s.slot k with port := .waiting } := by
  simp only [runSlot, Nat.not_le.mpr hd, hp, ho, if_true, if_false]

/-! ### A slot in ENDING moves on (R68) -/

theorem finishSlot_waits {s : State} {k : Fin 4} (hp : (s.slot k).port = .inProgress) : finishSlot s k = s := by
  simp only [finishSlot, hp, if_true]

theorem finishSlot_asks {s : State} {k : Fin 4} (hp : (s.slot k).port ≠ .inProgress) (ho : (s.slot k).ops ≠ []) :
    finishSlot s k = s.setSlot k { s.slot k with port := .waiting } := by
  simp only [finishSlot, hp, ho, ne_eq, not_false_iff, if_true, if_false]

theorem finishSlot_begins {s : State} {k : Fin 4} (hp : (s.slot k).port ≠ .inProgress) (ho : (s.slot k).ops = [])
    (hi : (s.slot k).inHand ≠ []) : finishSlot s k = s.setSlot k (beginWrite s (s.slot k)) := by
  simp only [finishSlot, hp, ho, hi, ne_eq, not_true, not_false_iff, if_true, if_false]

theorem finishSlot_ends {s : State} {k : Fin 4} (hp : (s.slot k).port ≠ .inProgress) (ho : (s.slot k).ops = [])
    (hi : (s.slot k).inHand = []) : finishSlot s k = endSlot s k (s.slot k).status := by
  simp only [finishSlot, hp, ho, hi, ne_eq, not_true, if_false]

/-! ### The deliveries left to a slot (R65, R73) -/

theorem trimDeliveries_writeIn {sl : Slot} (h : descKind sl.entry = some .writeIn) :
    trimDeliveries sl = { sl with inHand := contiguous sl.bytesDone sl.inHand, reads := 0 } := by
  simp only [trimDeliveries, h]

theorem head_pos_ne_iff (l : List SlotOp) (d : Nat) :
    (l.head?.map SlotOp.pos).getD d ≠ d ↔ ∃ o ∈ l.head?, o.pos ≠ d := by
  cases l <;> simp

theorem head_kind_read_iff (l : List SlotOp) :
    l.head?.map SlotOp.kind = some .read ↔ ∃ o ∈ l.head?, o.kind = .read := by
  cases l <;> simp

/-- A FILL whose piece has begun to be written delivers it (R73). -/
theorem trimDeliveries_fill_begun {sl : Slot} (h : descKind sl.entry = some .fill)
    (hb : sl.port = .inProgress ∨ ∃ o ∈ sl.ops.head?, o.pos ≠ sl.bytesDone) : trimDeliveries sl = sl := by
  rw [← head_pos_ne_iff] at hb
  simp only [trimDeliveries, h, if_pos hb]

theorem trimDeliveries_fill_unbegun {sl : Slot} (h : descKind sl.entry = some .fill)
    (hb : ¬(sl.port = .inProgress ∨ ∃ o ∈ sl.ops.head?, o.pos ≠ sl.bytesDone)) :
    trimDeliveries sl = { sl with ops := [], inHand := [], port := .none } := by
  rw [← head_pos_ne_iff] at hb
  simp only [trimDeliveries, h, if_neg hb]

/-- The kinds whose pieces begin with a read burst (R59, R60, R62). -/
def Kind.readsArray (kind : Option Kind) : Prop :=
  kind = some .copy ∨ kind = some .readOut ∨ kind = some .checksum

theorem trimDeliveries_reading {sl : Slot} (h : Kind.readsArray (descKind sl.entry)) :
    trimDeliveries sl =
      if sl.port = .inProgress ∨ sl.ops.head?.map SlotOp.kind ≠ some .read then sl
      else { sl with ops := [], port := .none } := by
  obtain h | h | h := h <;> simp only [trimDeliveries, h]

/-- A read burst that is asked for and not yet granted is withdrawn (R73). -/
theorem trimDeliveries_read_asked {sl : Slot} (h : Kind.readsArray (descKind sl.entry))
    (ha : sl.port ≠ .inProgress ∧ ∃ o ∈ sl.ops.head?, o.kind = .read) :
    trimDeliveries sl = { sl with ops := [], port := .none } := by
  rw [← head_kind_read_iff] at ha
  rw [trimDeliveries_reading h, if_neg (not_or.mpr ⟨ha.1, not_not.mpr ha.2⟩)]

theorem trimDeliveries_read_unasked {sl : Slot} (h : Kind.readsArray (descKind sl.entry))
    (ha : ¬(sl.port ≠ .inProgress ∧ ∃ o ∈ sl.ops.head?, o.kind = .read)) : trimDeliveries sl = sl := by
  rw [← head_kind_read_iff] at ha
  rw [trimDeliveries_reading h, if_pos (by tauto)]

/-! ### Stop requests (R72 to R75) -/

/-- The status that a slot given a stop request ends with (R72). -/
def StopRequest.ends (q : StopRequest) : Status := if q = .terminated then .terminated else .aborted

theorem StopRequest.cause_eq {q : StopRequest} (h : q ≠ .none) : q.cause = .status q.ends := by
  cases q with
  | none => exact absurd rfl h
  | aborted | terminated | silent => rfl

/-- A slot in CHECK that is given a stop request makes its end happening at once (R72). -/
theorem stopSlot_check_ends {s : State} {k : Fin 4} {q : StopRequest} (hq : q ≠ .none)
    (h : (s.slot k).state = .check) : stopSlot s k q = endSlot (s.setSlot k { s.slot k with stop := q }) k q.ends := by
  have hend := refuseSlot_eq_endSlot (s.setSlot k { s.slot k with stop := q }) k q.ends
  rw [refuseSlot, setSlot_slot, setSlot_setSlot] at hend
  rw [stopSlot_check q h, StopRequest.cause_eq hq]
  exact hend

/-- A slot in RUN that is given a stop request orphans its reads, keeps the deliveries left to it and moves on in ENDING
(R71, R73). -/
theorem stopSlot_run_ends {s : State} {k : Fin 4} {q : StopRequest} (hq : q ≠ .none) (h : (s.slot k).state = .run)
    {y : Slot} (hy : trimDeliveries { s.slot k with cause := .status q.ends, stop := q } = y) :
    stopSlot s k q = advanceSlot ((s.readsOrphaned k).setSlot k { y with state := .ending }) k := by
  rw [stopSlot_run q h, leaveRun, StopRequest.cause_eq hq, hy, orphanReads_eq, advanceSlot_ending]
  rw [setSlot_slot]

/-- The end cause after another stop request (R74). -/
theorem ending_cause_eq (sl : Slot) (q : StopRequest) :
    (if sl.stop = .silent then sl.cause else sl.cause.after q) =
      if sl.stop ≠ .silent ∧ sl.cause = .status .aborted ∧ q = .terminated then .status .terminated else sl.cause := by
  by_cases h : sl.stop = .silent <;> simp [h, EndCause.after]

/-! ### The obligation -/

/-- Settles O50: the slot's state decides; within RUN and ENDING, its port, its operations and the pieces in hand. -/
theorem slotsStopAndMoveOn : Obligations.SlotsStopAndMoveOn := by
  refine ⟨fun d ps => by cases ps <;> rfl, fun s k q hq => ?_⟩
  intro sl kind t v st orphaned stopped ends n begun reads writes
  refine ⟨fun h => ⟨stopSlot_idle q h, ?_⟩, fun h => ⟨stopSlot_check_ends hq h, ?_⟩, fun h => ?_, fun h => ?_⟩
  · simp only [v, advanceSlot, show (s.slot k).state = .idle from h]
  · simp only [v, advanceSlot, show (s.slot k).state = .check from h]
  · have hends : ∀ {y : Slot}, trimDeliveries { s.slot k with cause := .status q.ends, stop := q } = y →
        ends { y with state := .ending } := fun hy => stopSlot_run_ends hq h hy
    have hrun : v = runSlot s k := advanceSlot_run h
    refine ⟨fun hk => hends (trimDeliveries_writeIn hk),
      fun hk => ⟨fun hb => hends (trimDeliveries_fill_begun hk hb),
        fun hb => hends (trimDeliveries_fill_unbegun hk hb)⟩,
      fun hk => ⟨fun ha => hends (trimDeliveries_read_asked hk ha),
        fun ha => hends (trimDeliveries_read_unasked hk ha)⟩,
      fun hd => hrun.trans (runSlot_ends hd), fun hd => ⟨fun hp => hrun.trans (runSlot_waits hd hp),
        fun hp ho => hrun.trans (runSlot_asks hd hp ho), fun hp ho => ?_⟩⟩
    have hbegin : v = s.setSlot k (beginPiece s sl) := hrun.trans (runSlot_begins hd hp ho)
    have hpiece : ∀ {y : Slot}, beginPiece s sl = y → v = s.setSlot k y := fun hy => hy ▸ hbegin
    refine ⟨fun hk => ⟨fun p hp hpos => hpiece ?_, fun hgap => ?_⟩, fun hk => hpiece ?_, fun hk => hpiece ?_,
      fun hk hn => hpiece ?_⟩
    · simp only [beginPiece, show descKind sl.entry = _ from hk]
      exact beginWrite_next s hp hpos
    · have hsame : beginPiece s sl = sl := by
        simp only [beginPiece, show descKind sl.entry = _ from hk]
        exact beginWrite_gap s hgap
      exact (hpiece hsame).trans (setSlot_self s k)
    · obtain hk | hk := hk <;>
      · simp only [beginPiece, show descKind sl.entry = _ from hk]
        rfl
    · simp only [beginPiece, show descKind sl.entry = _ from hk]
      rfl
    · simp only [beginPiece, show descKind sl.entry = _ from hk]
      exact beginFill_eq s hn
  · have hfinish : v = finishSlot s k := advanceSlot_ending h
    refine ⟨?_, fun hp => hfinish.trans (finishSlot_waits hp), fun hp ho => hfinish.trans (finishSlot_asks hp ho),
      fun hp ho p hin hpos => hfinish.trans ?_,
      fun hp ho hin => hfinish.trans ((finishSlot_ends hp ho hin).trans (congrArg (endSlot s k) ?_))⟩
    · rw [← ending_cause_eq]
      exact stopSlot_ending q h
    · have hne : sl.inHand ≠ [] := fun e => by rw [e] at hin; cases hin
      exact (finishSlot_begins hp ho hne).trans (congrArg (s.setSlot k) (beginWrite_next s hin hpos))
    · show Slot.status sl = _
      unfold Slot.status
      cases sl.cause <;> rfl

end Sys2Proof.Machine
end

section
/-! SUPPORT. The release points of a slot's port operations: a read burst reaches its slot (R59, R60, R62, R66, R104), and
a write burst and a read-modify-write store their bytes (R58, R67, R105, R106). -/

-- One theorem at a time, as in the tests above: fewer threads than the memory limit allows.
set_option Elab.async false

namespace Sys2Proof.Machine

/-! ### The operation at the port (R97, R98) -/

/-- The first of a slot's operations is the one that a grant to the slot has in progress. -/
theorem slotAtPort_of_holder {s : State} {k : Fin 4} {o : SlotOp} {kind : SlotOpKind} (hh : s.port.holder = .slot k)
    (hp : (s.slot k).port = .inProgress) (ho : (s.slot k).ops.head? = some o) (hk : o.kind = kind) :
    slotAtPort s kind = some (k, o) := by
  obtain ⟨rest, hops⟩ := List.head?_eq_some_iff.mp ho
  simp only [slotAtPort, hh, opInProgress, hops, hp, hk, and_self, if_true, Option.map_some]

theorem exec_readBurst_atPort {s : State} {k : Fin 4} {o : SlotOp} (hc : s.power.core = true)
    (hs : slotAtPort s .read = some (k, o)) (hin : (o.addr + o.len + 7) / 8 * 8 ≤ s.capacity.bytes)
    (fs : List Finding) : exec (.readBurst fs) s = .next (readBurstEnd s k o fs) := by
  show execReadBurst fs s = _
  simp only [execReadBurst, hc, hs, withinArray, hin, decide_true, if_true, Bool.true_eq_false, if_false]

theorem exec_writeBurst_atPort {s : State} {k : Fin 4} {o : SlotOp} (hc : s.power.core = true)
    (hs : slotAtPort s .write = some (k, o)) (hin : (o.addr + o.len + 7) / 8 * 8 ≤ s.capacity.bytes) :
    exec .writeBurst s = .next (writeBurstEnd s k o) := by
  show execWriteBurst s = _
  simp only [execWriteBurst, hc, hs, withinArray, hin, decide_true, if_true, Bool.true_eq_false, if_false]

theorem exec_readModifyWrite_atPort {s : State} {k : Fin 4} {o : SlotOp} (hc : s.power.core = true)
    (hs : slotAtPort s .rmw = some (k, o)) (hin : (o.addr + o.len + 7) / 8 * 8 ≤ s.capacity.bytes) (f : Finding) :
    exec (.readModifyWrite f) s =
      .next
        (if f.condition = .uncorrectable then rmwFailed s k o (o.addr / 8 * 8, f)
        else rmwWritten s k o (o.addr / 8 * 8, f)) := by
  show execReadModifyWrite f s = _
  simp only [execReadModifyWrite, hc, hs, withinArray, hin, decide_true, if_true, Bool.true_eq_false, if_false]

/-! ### Self-refresh entry is asked for in DRAINING alone (R110) -/

theorem advanceSlot_entryLaw {s : State} (h : s.EntryLaw) (k : Fin 4) : (advanceSlot s k).EntryLaw := by
  obtain ⟨_, _, _, _, _, e⟩ := advanceSlot_eq s k
  rw [e]
  exact h

theorem reportFindings_entryLaw {s : State} (h : s.EntryLaw) (ws : List (Nat × Finding)) :
    (reportFindings s ws).EntryLaw := by
  obtain ⟨_, _, _, e⟩ := reportFindings_eq s ws
  rw [e]
  exact h

/-! ### What a read burst delivers (R103, R104) -/

/-- The bytes of a word, by what the array yields for it (R103). -/
theorem wordBytes_eq (m : List Host.Cell) :
    wordBytes m = fun w =>
      match w.2.data with
      | some d => leBytes 8 d.toNat
      | none => Memory.readBytes m w.1 8 := by
  funext w
  unfold wordBytes
  cases w.2.data <;> rfl

/-- The slot whose read burst has reached its release point, before the data reaches it (R66, R98). -/
def Slot.readEnded (sl : Slot) (failed : Bool) : Slot :=
  if failed then mediaError { sl with port := .none, ops := [] } else { sl with port := .none, ops := [] }

/-- A READ_OUT hands its bytes to the LIU (R59). -/
theorem readTaken_readOut {s : State} {k : Fin 4} (h : descKind (s.slot k).entry = some .readOut) (o : SlotOp)
    (good : List Byte) (failed : Bool) :
    readTaken s k o good failed =
      (if good = [] then s
        else s.handOut (.write (longAt (s.slot k).entry 32 + BitVec.ofNat 64 o.pos) good)).setSlot k
        { (s.slot k).readEnded failed with bytesDone := (s.slot k).bytesDone + good.length } := by
  cases failed <;>
  · simp only [readTaken, Slot.readEnded, mediaError, if_true, Bool.false_eq_true, if_false, h]
    rfl

/-- A CHECKSUM takes its bytes into the CRC (R62). -/
theorem readTaken_checksum {s : State} {k : Fin 4} (h : descKind (s.slot k).entry = some .checksum) (o : SlotOp)
    (good : List Byte) (failed : Bool) :
    readTaken s k o good failed =
      s.setSlot k
        { (s.slot k).readEnded failed with
          bytesDone := (s.slot k).bytesDone + good.length, crc := good.foldl crcByte (s.slot k).crc } := by
  cases failed <;>
  · simp only [readTaken, Slot.readEnded, mediaError, if_true, Bool.false_eq_true, if_false, h]
    rfl

/-- A COPY takes its bytes in hand and asks for the operations that write them (R60). -/
theorem readTaken_copy {s : State} {k : Fin 4} (h : descKind (s.slot k).entry = some .copy) (o : SlotOp)
    (good : List Byte) (failed : Bool) :
    readTaken s k o good failed =
      s.setSlot k
        (if good = [] then (s.slot k).readEnded failed
        else
          { (s.slot k).readEnded failed with
            inHand := [{ pos := o.pos, data := good }]
            ops := writeOps o.pos (rangeA s (s.slot k) + o.pos) good.length }) := by
  by_cases hg : good = []
  · cases failed <;> simp only [readTaken, Slot.readEnded, mediaError, if_true, Bool.false_eq_true, if_false, h, hg]
  · cases failed <;>
    · simp only [readTaken, Slot.readEnded, mediaError, if_true, Bool.false_eq_true, if_false, h, hg]
      rfl

theorem readTaken_entryLaw {s : State} (h : s.EntryLaw) (k : Fin 4) (o : SlotOp) (good : List Byte) (failed : Bool) :
    (readTaken s k o good failed).EntryLaw := by
  unfold readTaken
  simp only
  split
  · split
    · exact h
    · exact handOut_entryLaw h _
  · exact h
  · split <;> exact h
  · exact h

/-- Settles O51: the words paired with their findings, the bytes before the lowest uncorrectable one, and what each kind
makes of them. -/
theorem readBurstDelivered : Obligations.ReadBurstDelivered := by
  intro s k o findings hcore he sl hholder hport hops hkind hlen hin words delivered all bad good u y done
  have hwords : pairFindings (wordAddresses o.addr o.len) findings = words := pairFindings_eq _ _
  have hgood : burstBytes s.mem o words = good := by
    unfold burstBytes firstBad
    rw [wordBytes_eq]
    show (match Option.map Prod.fst bad with
      | none => all
      | some a => all.take (a - o.addr)) = match bad with
      | none => all
      | some w => all.take (w.1 - o.addr)
    cases bad <;> rfl
  have hslot : sl.readEnded (firstBad words).isSome = y := by
    show sl.readEnded (Option.map Prod.fst bad).isSome = if bad = none then _ else _
    cases bad <;> rfl
  have hdone : ∀ {v : State}, readTaken u k o good (firstBad words).isSome = v → done v := fun {v} hv => by
    have hrelease : releasePort s = u := rfl
    have hlaw : v.EntryLaw := hv ▸ readTaken_entryLaw (s := u) he k o good _
    have hexec := exec_readBurst_atPort hcore (slotAtPort_of_holder hholder hport hops hkind) hin findings
    simp only [readBurstEnd, hwords, hgood, hrelease, hv] at hexec
    exact concludes_of_next hexec (reportFindings_entryLaw (advanceSlot_entryLaw hlaw k) words)
  have hsame : u.slot k = sl := rfl
  refine ⟨fun hk => hdone ?_, fun hk => hdone ?_, fun hk => hdone ?_⟩
  · rw [readTaken_readOut (s := u) hk, hsame, hslot]
  · rw [readTaken_checksum (s := u) hk, hsame, hslot]
  · rw [readTaken_copy (s := u) hk, hsame, hslot]
    rfl

/-! ### What a write stores (R58, R67, R105, R106) -/

theorem opData_inHand {sl : Slot} {p : Piece} {more : List Piece} (h : sl.inHand = p :: more) (o : SlotOp) :
    opData sl o = (p.data.drop (o.pos - p.pos)).take o.len := by
  simp only [opData, h]

/-- The piece in hand is delivered with the last of its operations (R58). -/
theorem opWritten_eq {sl : Slot} {o : SlotOp} {rest : List SlotOp} {p : Piece} {more : List Piece}
    (ho : sl.ops = o :: rest) (hi : sl.inHand = p :: more) :
    opWritten sl =
      if rest = [] then { sl with port := .none, ops := [], inHand := more, bytesDone := p.pos + p.data.length }
      else { sl with port := .none, ops := rest } := by
  cases rest with
  | nil => simp only [opWritten, ho, hi, if_true]
  | cons q rest => simp only [opWritten, ho, reduceCtorEq, if_false]

/-- Settles O52: memory after bytes stored is read byte by byte, and the slot is the one its operation leaves. -/
theorem writesDelivered : Obligations.WritesDelivered := by
  intro s k o rest p more finding hcore he hmem sl hholder hport hops hhand hin data u y word merged ws stored
  have hatPort : ∀ {kind}, o.kind = kind → slotAtPort s kind = some (k, o) :=
    slotAtPort_of_holder hholder hport (by rw [hops]; rfl)
  have hdata : opData (s.slot k) o = data := opData_inHand hhand o
  have hslot : opWritten (s.slot k) = y := opWritten_eq hops hhand
  have hword : wordBytes s.mem (o.addr / 8 * 8, finding) = word := congrFun (wordBytes_eq s.mem) _
  have hlaw : ∀ m, (advanceSlot (State.setSlot { u with mem := m } k y) k).EntryLaw := fun m =>
    advanceSlot_entryLaw (s := State.setSlot { u with mem := m } k y) he k
  have hconclude : ∀ {v : State}, v.EntryLaw → (conclude v).besideGrants = (settlePhases v).besideGrants := fun h =>
    besideGrants_conclude (settlePhases_entryLaw h).1
  refine ⟨fun hk => ?_, fun hk hgood => ?_, fun hk hbad => ?_⟩
  · have hafter := (keeps_writeBurstEnd s k o).mem
    rw [hdata] at hafter
    refine ⟨_, exec_writeBurst_atPort hcore (hatPort hk) hin, fun a => ?_, ?_⟩
    · rw [hafter, read_writeBytes hmem]
    · rw [hafter, writeBurstEnd, hdata, hslot]
      exact hconclude (hlaw _)
  · have hexec := exec_readModifyWrite_atPort hcore (hatPort hk) hin finding
    have hafter := (keeps_rmwWritten s k o (o.addr / 8 * 8, finding)).mem
    rw [if_neg hgood] at hexec
    rw [hdata, hword] at hafter
    refine ⟨_, hexec, fun a => ?_, ?_⟩
    · rw [hafter, read_writeBytes hmem]
      rfl
    · rw [hafter, rmwWritten, hdata, hword, hslot]
      exact hconclude (reportFindings_entryLaw (hlaw _) ws)
  · have hexec := exec_readModifyWrite_atPort hcore (hatPort hk) hin finding
    rw [if_pos hbad] at hexec
    exact concludes_of_next hexec
      (reportFindings_entryLaw (advanceSlot_entryLaw (s := (orphanReads u k).setSlot k (opFailed sl o)) he k) ws)

end Sys2Proof.Machine
end

section
/-! SUPPORT. The law of R81, ring by ring: which operations leave every completion ring as it is, and what the others leave
of a ring whose unconsumed entries are within its size. -/

-- One theorem at a time, as in the tests above: fewer threads than the memory limit allows.
set_option Elab.async false

namespace Sys2Proof.Machine

/-- The ring's unconsumed entries are within its size (R81). -/
def Ring.Fits (x : Ring) : Prop := x.unconsumed ≤ x.size

/-- Each ring whose unconsumed entries are within its size in `s` has them so in `t`. -/
def State.StaysFit (s t : State) : Prop := ∀ r, (s.ring r).Fits → (t.ring r).Fits

namespace State.StaysFit

theorem refl (s : State) : s.StaysFit s := fun _ h => h

theorem trans {s t u : State} (h : s.StaysFit t) (h' : t.StaysFit u) : s.StaysFit u := fun r hr => h' r (h r hr)

/-- The rings are the same; for an update of other fields by computation. -/
theorem of_rings {s t : State} (h : t.rings = s.rings := by rfl) : s.StaysFit t := fun r hr => by
  rwa [State.ring, h]

/-- An update that leaves the rings, before one that keeps them fit. -/
theorem after {s t u : State} (h : t.StaysFit u) (hr : t.rings = s.rings := by rfl) : s.StaysFit u :=
  (of_rings hr).trans h

/-- One ring replaced by one that is fit if it was. -/
theorem of_set {s t : State} {r : Fin 9} {x : Ring} (ht : t.rings = s.rings.set r x)
    (hx : (s.ring r).Fits → x.Fits) : s.StaysFit t := fun q hq => by
  have h : t.ring q = if q = r then x else s.ring q := (congrArg (fun v => Vector.get v q) ht).trans (get_set _ _ _ _)
  rw [h]
  split
  · subst_vars; exact hx hq
  · exact hq

/-- Each ring keeps its unconsumed entries and its size. -/
theorem of_levels {s t : State}
    (h : ∀ r, (t.ring r).unconsumed = (s.ring r).unconsumed ∧ (t.ring r).size = (s.ring r).size) : s.StaysFit t :=
  fun r hr => by
    obtain ⟨hu, hs⟩ := h r
    rw [Ring.Fits, hu, hs]
    exact hr

/-- No ring is left (R78, R93, R160). -/
theorem of_none {s t : State} (h : t.rings = Vector.replicate 9 Ring.none) : s.StaysFit t := fun r _ => by
  rw [State.ring, h, get_replicate]
  exact le_rfl

theorem foldl {α : Type} {f : State → α → State} (hf : ∀ (s : State) (a : α), s.StaysFit (f s a)) (l : List α)
    (s : State) : s.StaysFit (l.foldl f s) := by
  induction l generalizing s with
  | nil => exact .refl s
  | cons a l ih => exact (hf s a).trans (ih _)

end State.StaysFit

/-! ### Operations that leave the rings -/

theorem handOut_rings (s : State) (o : Outbound) : (s.handOut o).rings = s.rings := by
  rw [handOut_handed]

theorem raise_rings (s : State) (c : Cause) : (s.raise c).rings = s.rings := by
  obtain ⟨e, q, h⟩ := raise_eq s c
  rw [h]

theorem raiseAlert_rings (s : State) (d : AlertDetail) : (s.raiseAlert d).rings = s.rings :=
  raise_rings s .monitorAlert

@[simp] theorem handOverAdmin_rings (s : State) (st : Status) (v : Word32) :
    (s.handOverAdmin st v).rings = s.rings := by
  obtain ⟨a, h⟩ := handOverAdmin_eq s st v
  rw [h]

theorem settleLink_rings (s : State) : (settleLink s).rings = s.rings :=
  (congrArg State.rings (besideTags_settleLink s) :)

theorem settlePort_rings (s : State) : (settlePort s).rings = s.rings :=
  (congrArg State.rings (settlePort_beside s) :)

theorem reportFindings_rings (s : State) (ws : List (Nat × Finding)) : (reportFindings s ws).rings = s.rings := by
  obtain ⟨hs, e, q, h⟩ := reportFindings_eq s ws
  rw [h]

theorem endSlot_rings (s : State) (k : Fin 4) (st : Status) : (endSlot s k st).rings = s.rings := by
  rw [endSlot_frame]

theorem advanceSlot_rings (s : State) (k : Fin 4) : (advanceSlot s k).rings = s.rings := by
  obtain ⟨ps, a, cs, w, ss, h⟩ := advanceSlot_eq s k
  rw [h]

theorem refuseSlot_rings (s : State) (k : Fin 4) (st : Status) : (refuseSlot s k st).rings = s.rings := by
  rw [refuseSlot_eq_endSlot, endSlot_rings]

theorem stopSlot_rings (s : State) (k : Fin 4) (q : StopRequest) : (stopSlot s k q).rings = s.rings := by
  obtain ⟨ps, a, cs, w, ss, ts, h⟩ := stopSlot_eq s k q
  rw [h]

theorem stopBoundSlot_rings (s : State) (c : Fin 16) : (stopBoundSlot s c).rings = s.rings := by
  unfold stopBoundSlot
  split
  · rfl
  · exact stopSlot_rings s _ _

theorem stopAllSlots_rings (s : State) (q : StopRequest) : (stopAllSlots s q).rings = s.rings := by
  obtain ⟨ps, a, cs, w, ss, ts, h⟩ := stopAllSlots_eq s q
  rw [h]

theorem startDrain_rings (s : State) (r : DrainReason) : (startDrain s r).rings = s.rings := by
  unfold startDrain
  exact stopAllSlots_rings _ _

theorem takeTriggers_rings (s : State) (l : List DrainReason) : (takeTriggers s l).rings = s.rings := by
  unfold takeTriggers
  split
  · rfl
  · exact startDrain_rings s _
  · exact startDrain_rings s _

theorem enterRun_rings (s : State) (k : Fin 4) (kind : Kind) : (enterRun s k kind).rings = s.rings := by
  obtain ⟨ps, h⟩ := takeRefs_eq s (s.slot k).entry kind
  exact (advanceSlot_rings _ k).trans (congrArg State.rings h :)

theorem scheduleChoice_rings (s : State) (k : Fin 4) (c : Fin 16) (turn : Turn) :
    (scheduleChoice s k c turn).rings = s.rings := by
  unfold scheduleChoice
  split
  · rfl
  · obtain ⟨ps, a, cs, w, ss, h⟩ :=
      checkFields_eq { startSlot s k c ‹_› ‹_› with sched := s.sched.setTurn (choiceClass s) turn } k
    exact (congrArg State.rings h :)

theorem readTaken_rings (s : State) (k : Fin 4) (o : SlotOp) (good : List Byte) (failed : Bool) :
    (readTaken s k o good failed).rings = s.rings := by
  unfold readTaken
  simp only
  split
  · split
    · rfl
    · exact handOut_rings s _
  · rfl
  · split <;> rfl
  · rfl

theorem readDone_rings (s : State) (x : Tag) (bs : List Byte) : (readDone s x bs).rings = s.rings := by
  obtain ⟨ps, a, cs, w, ss, fs, f, h⟩ := readDone_eq s x bs
  rw [h]

theorem readFailed_rings (s : State) (x : Tag) : (readFailed s x).rings = s.rings := by
  obtain ⟨ps, a, cs, w, ss, fs, f, e, q, ts, h⟩ := readFailed_eq s x
  rw [h]

theorem failAllTags_rings (s : State) : (failAllTags s).rings = s.rings := by
  obtain ⟨ps, a, cs, w, ss, fs, f, e, q, ts, h⟩ := failAllTags_eq s
  rw [h]

/-! ### Operations on one ring (R81, R84, R88) -/

theorem staysFit_setRing {s : State} {r : Fin 9} {x : Ring} (h : (s.ring r).Fits → x.Fits) :
    s.StaysFit (s.setRing r x) := .of_set rfl h

theorem staysFit_elapse (s : State) (n : Nat) : s.StaysFit (s.elapse n) := .of_levels fun r => by
  rw [elapse_ring]
  exact ⟨rfl, rfl⟩

theorem staysFit_sendVector (s : State) (r : Fin 9) : s.StaysFit (sendVector s r) := .of_levels fun q => by
  rw [sendVector_ring]
  split
  · subst_vars; exact ⟨rfl, rfl⟩
  · exact ⟨rfl, rfl⟩

theorem staysFit_signalRest (s : State) (r : Fin 9) : s.StaysFit (signalRest s r) := by
  unfold signalRest
  split
  · exact staysFit_sendVector s r
  · exact .refl s

/-- An entry written to a ring with room leaves it fit (R81). -/
theorem staysFit_writeEntry {s : State} {r : Fin 9} (f : Completion) (h : (s.ring r).hasRoom = true) :
    s.StaysFit (writeEntry s r f) := by
  have hhand : (handEntry s r f).rings = s.rings := by
    unfold handEntry
    simp only
    split
    · rw [handOut_rings, handOut_rings]
    · exact handOut_rings s _
  rw [writeEntry_coalesced]
  exact .of_set (congrArg (fun v : Vector Ring 9 => v.set r _) hhand) fun _ => (hasRoom_iff.mp h).2

/-- A head that is taken releases entries, or its ring is FAULTED with the entries it has (R84, R86). -/
theorem staysFit_takeHead (s : State) (r : Fin 9) (n : Nat) : s.StaysFit (takeHead s r n) := by
  unfold takeHead
  simp only
  split
  · exact staysFit_setRing fun h => (Nat.sub_le _ _).trans h
  · have hfault : (signalFault s r).rings = s.rings := by
      unfold signalFault
      split
      · exact handOut_rings s _
      · rfl
    rw [faultRing_signalled]
    refine .of_set (r := r) (x := (s.ring r).faulted) ((raise_rings _ .cqFault).trans ?_) fun h => ?_
    · exact congrArg (fun v : Vector Ring 9 => v.set r _) hfault
    · unfold Ring.faulted
      split <;> exact h

/-! ### Passages (R44, R46, R93, R160) -/

theorem staysFit_endDeletion (s : State) : s.StaysFit (endDeletion s) := by
  unfold endDeletion
  split
  · exact .refl s
  · split
    · refine State.StaysFit.trans (.of_levels fun q => ?_) (.of_rings (handOverAdmin_rings _ _ _))
      rw [dropChannel_ring]
      exact ⟨rfl, rfl⟩
    · exact .refl s

theorem staysFit_quiesceStep (s : State) : s.StaysFit (quiesceStep s) := by
  by_cases h : s.ctl.op = .quiescing
  · obtain ⟨u, hu, hstep⟩ := quiesceStep_on h
    rw [hstep]
    split
    · rw [endQuiesce_frame]
      exact .of_none rfl
    · refine .of_levels fun q => ?_
      rw [hu.on.ring]
      exact ⟨rfl, rfl⟩
  · rw [quiesceStep_off h]
    exact .refl s

/-- SETTLE leaves no ring (R160). -/
theorem staysFit_beginSettle (s : State) : s.StaysFit (beginSettle s) := .of_none rfl

theorem staysFit_endFlush (s : State) (o : FlushOutcome) : s.StaysFit (endFlush s o) :=
  (staysFit_beginSettle (s.withOutcome o)).after

theorem staysFit_settleStandby (s : State) : s.StaysFit (settleStandby s) := by
  unfold settleStandby
  exact (staysFit_beginSettle _).after

theorem staysFit_stopStep (s : State) : s.StaysFit (stopStep s) := by
  by_cases h : s.ctl.op = .draining ∧ s.ctl.phase = .stop
  · rw [stopStep_on h.1 h.2]
    split
    · unfold endStop
      split
      · split
        · exact (staysFit_endFlush s.allStopped _).after
        · exact .of_rings
      · exact (staysFit_beginSettle s.allStopped).after
    · exact .of_rings
  · rw [stopStep_off (not_and_or.mp h)]
    exact .refl s

theorem staysFit_flushStep (s : State) : s.StaysFit (flushStep s) := by
  unfold flushStep
  split
  · exact staysFit_endFlush s _
  · exact .refl s

theorem staysFit_conclude (s : State) : s.StaysFit (conclude s) :=
  ((staysFit_endDeletion s).trans ((staysFit_quiesceStep _).trans ((staysFit_stopStep _).trans
    (staysFit_flushStep _)))).trans (.of_rings ((settlePort_rings _).trans (settleLink_rings _)))

/-- A happening that leaves the rings, concluded. -/
theorem staysFit_concluded {s t : State} (h : t.rings = s.rings := by rfl) : s.StaysFit (conclude t) :=
  (staysFit_conclude t).after h

end Sys2Proof.Machine
end

section
/-! O7: every command keeps the unconsumed entries of a completion ring within its size (R81, R84). -/

-- One theorem at a time, as in the tests above: fewer threads than the memory limit allows.
set_option Elab.async false

namespace Sys2Proof.Machine

/-- Each next state that the outcome can be keeps fit rings fit. -/
def State.FitIn (s : State) (o : Out) : Prop := ∀ t, o = .next t → s.StaysFit t

section
variable {s t : State}

theorem fitIn_next (h : s.StaysFit t) : s.FitIn (.next t) := fun _ e => by
  cases e
  exact h

theorem fitIn_same : s.FitIn (.next s) := fitIn_next (.refl s)

theorem fitIn_fault (f : Fault) : s.FitIn (.fault f) := fun _ e => nomatch e

theorem fitIn_rings (h : t.rings = s.rings := by rfl) : s.FitIn (.next t) := fitIn_next (.of_rings h)

theorem fitIn_concluded (h : t.rings = s.rings := by rfl) : s.FitIn (.next (conclude t)) :=
  fitIn_next (staysFit_concluded h)

theorem fitIn_ite {p : Prop} [Decidable p] (h : p → s.FitIn (.next t)) : s.FitIn (.next (if p then t else s)) := by
  split
  · exact h ‹_›
  · exact fitIn_same

end

/-! ### Commands of the admin ring (R134) -/

@[simp] theorem done_rings (t : State) (st : Status) (v : Word32) : (Taken.done t st v).state.rings = t.rings :=
  handOverAdmin_rings t st v

@[simp] theorem refused_rings (s : State) (st : Status) : (Taken.refused s st).state.rings = s.rings :=
  done_rings s st 0

theorem fitIn_takeCommand {codes : Nat → Bool} {body : State → Record → Taken} {fin : State → State}
    (hf : ∀ u : State, u.StaysFit (fin u)) (hb : ∀ (s : State) (r : Record), s.StaysFit (body s r).state) (s : State) :
    s.FitIn (takeCommand codes body fin s) := by
  unfold takeCommand
  split
  · exact fitIn_same
  · split
    · exact fitIn_next (((hb (beginCommand s _ _) _).after).trans (hf _))
    · exact fitIn_same

/-- A command of the admin ring that keeps fit rings fit, and ends with the link settled. -/
theorem fitIn_taken {codes : Nat → Bool} {body : State → Record → Taken}
    (hb : ∀ (s : State) (r : Record), s.StaysFit (body s r).state) (s : State) :
    s.FitIn (takeCommand codes body settleLink s) :=
  fitIn_takeCommand (fun u => .of_rings (settleLink_rings u)) hb s

/-- A command of the admin ring that leaves the rings. -/
theorem fitIn_takenBeside {codes : Nat → Bool} {body : State → Record → Taken}
    (hb : ∀ (s : State) (r : Record), (body s r).state.rings = s.rings) (s : State) :
    s.FitIn (takeCommand codes body settleLink s) :=
  fitIn_taken (fun s r => .of_rings (hb s r)) s

theorem withPartition_rings {s : State} {r : Record} {body : Fin 16 → Taken}
    (h : ∀ i, (body i).state.rings = s.rings) : (withPartition s r body).state.rings = s.rings := by
  unfold withPartition
  split
  · exact refused_rings s _
  · split
    · exact refused_rings s _
    · exact h _

theorem withChannel_rings {s : State} {r : Record} {body : Fin 16 → Taken}
    (h : ∀ c, (body c).state.rings = s.rings) : (withChannel s r body).state.rings = s.rings := by
  unfold withChannel
  split
  · exact refused_rings s _
  · split
    · exact refused_rings s _
    · exact h _

theorem definePart_rings (s : State) (r : Record) (i : Fin 16) : (definePart s r i).state.rings = s.rings := by
  obtain ⟨st, h⟩ | ⟨p, -, h⟩ := definePart_cases s r i <;> rw [h]
  · exact refused_rings s st
  · exact done_rings _ _ _

theorem freezePart_rings (s : State) (i : Fin 16) : (freezePart s i).state.rings = s.rings := by
  unfold freezePart
  split_ifs <;> simp

theorem releasePart_rings (s : State) (i : Fin 16) : (releasePart s i).state.rings = s.rings := by
  unfold releasePart
  split_ifs
  · exact refused_rings s _
  · exact done_rings (freePart s i) _ _
  · rfl

theorem clearTornPart_rings (s : State) (i : Fin 16) : (clearTornPart s i).state.rings = s.rings := by
  unfold clearTornPart
  split_ifs <;> simp

theorem postRecord_rings (s : State) (r : Record) (bytes : List Byte) : (postRecord s r bytes).rings = s.rings :=
  handOut_rings s _

theorem getPartitions_rings (s : State) (r : Record) : (getPartitions s r).state.rings = s.rings := by
  unfold getPartitions
  split_ifs <;> simp [postRecord_rings]

theorem getHealth_rings (s : State) (r : Record) : (getHealth s r).state.rings = s.rings := by
  unfold getHealth
  split_ifs <;> simp [postRecord_rings]

theorem getRetentionRecord_rings (s : State) (r : Record) : (getRetentionRecord s r).state.rings = s.rings := by
  unfold getRetentionRecord
  split_ifs <;> simp [postRecord_rings]

theorem deleteChan_rings (s : State) (c : Fin 16) : (deleteChan s c).state.rings = s.rings :=
  stopBoundSlot_rings _ c

theorem pauseChan_rings (s : State) (c : Fin 16) : (pauseChan s c).state.rings = s.rings := by
  unfold pauseChan
  split_ifs <;> simp

theorem resumeChan_rings (s : State) (c : Fin 16) : (resumeChan s c).state.rings = s.rings := by
  unfold resumeChan
  simp only
  split_ifs <;> simp

theorem setRefresh_rings (s : State) (r : Record) : (setRefresh s r).state.rings = s.rings := by
  unfold setRefresh
  simp only
  split
  · exact refused_rings s _
  · split <;> simp

theorem setScrub_rings (s : State) (r : Record) : (setScrub s r).state.rings = s.rings := by
  unfold setScrub
  simp only
  split <;> simp

theorem setMonitor_rings (s : State) (r : Record) : (setMonitor s r).state.rings = s.rings := by
  unfold setMonitor
  simp only
  split_ifs <;> simp

theorem setLinkTimeout_rings (s : State) (r : Record) : (setLinkTimeout s r).state.rings = s.rings := by
  unfold setLinkTimeout
  simp only
  split <;> simp

theorem setDrain_rings (s : State) (r : Record) : (setDrain s r).state.rings = s.rings := by
  unfold setDrain
  simp only
  split <;> simp

theorem claimRetained_rings (s : State) (r : Record) : (claimRetained s r).state.rings = s.rings := by
  unfold claimRetained
  split
  · exact refused_rings s _
  · exact done_rings _ _ _

theorem discardRetained_rings (s : State) (r : Record) : (discardRetained s r).state.rings = s.rings := by
  unfold discardRetained
  split
  · exact refused_rings s _
  · exact done_rings _ _ _

/-- A channel bound to a ring is counted there, and nothing else of the ring changes (R40, R76). -/
theorem staysFit_createChannel (s : State) (r : Record) : s.StaysFit (createChannel s r).state := by
  have hrefused : ∀ st, s.StaysFit (Taken.refused s st).state := fun st => .of_rings (refused_rings s st)
  have hbind : ∀ c x, s.StaysFit (Taken.done (bindChannel s c x) .ok 0).state := fun c x =>
    .of_set (r := x.ring) (x := { s.ring x.ring with bound := (s.ring x.ring).bound + 1 }) (done_rings _ _ _) id
  unfold createChannel
  split
  · exact hrefused _
  split
  · exact hrefused _
  split
  · exact hrefused _
  split
  · exact hrefused _
  split
  · exact hrefused _
  split
  · split
    · exact hbind _ _
    · exact hrefused _
  · exact hrefused _

/-- A new ring is empty (R91). -/
theorem staysFit_createCq (s : State) (r : Record) : s.StaysFit (createCq s r).state := by
  unfold createCq
  split
  · exact .of_rings (refused_rings s _)
  · split_ifs
    · exact .of_rings (refused_rings s _)
    · exact .of_set (x := newRing r) (done_rings _ _ _) fun _ => Nat.zero_le _
    · exact .of_rings (refused_rings s _)

theorem staysFit_deleteCq (s : State) (r : Record) : s.StaysFit (deleteCq s r).state := by
  unfold deleteCq
  split
  · exact .of_rings (refused_rings s _)
  · split_ifs
    · exact .of_rings (refused_rings s _)
    · exact .of_rings (refused_rings s _)
    · exact (staysFit_signalRest s _).trans (.of_set (x := Ring.none) (done_rings _ _ _) fun _ => Nat.zero_le _)

/-! ### Register writes -/

/-- The admin ring set up by ENABLE has an empty ring 0 (R79). -/
theorem staysFit_setUpAdminRing (s : State) : s.StaysFit (setUpAdminRing s) :=
  .of_set (r := 0) (x := adminRing0 s.adminRing) rfl fun _ => Nat.zero_le _

theorem staysFit_enableStandby (s : State) : s.StaysFit (enableStandby s) := by
  have hset := staysFit_setUpAdminRing { s with ctl := { s.ctl with op := .active } }
  unfold enableStandby
  simp only
  generalize setUpAdminRing _ = t at hset ⊢
  refine State.StaysFit.trans hset.after ?_
  split
  · exact staysFit_conclude t
  · exact staysFit_concluded (startDrain_rings t _)

theorem fitIn_enable (s : State) : s.FitIn (execEnable s) := by
  unfold execEnable
  split
  · exact fitIn_same
  split
  · split
    · exact fitIn_next (staysFit_enableStandby s)
    · exact fitIn_rings (raise_rings s _)
  · split
    · exact fitIn_same
    · split
      · exact fitIn_rings
      · exact fitIn_rings (raise_rings s _)
  all_goals exact fitIn_same

/-- FUNCTION_RESET leaves no ring (R78, R154). -/
theorem fitIn_functionReset (s : State) : s.FitIn (execFunctionReset s) := by
  unfold execFunctionReset
  split
  · exact fitIn_same
  split
  · rw [functionReset_eq]
    exact fitIn_next ((State.StaysFit.of_none (t := s.abandoned) rfl).trans
      (staysFit_concluded (stopAllSlots_rings _ _)))
  · exact fitIn_ite fun _ => fitIn_rings

theorem fitIn_notifySqTail (ring : BitVec 8) (index : BitVec 16) (s : State) :
    s.FitIn (execNotifySqTail ring index s) := by
  unfold execNotifySqTail
  split
  · exact fitIn_same
  split
  · unfold notifyAdminTail
    split
    · exact fitIn_rings (settleLink_rings _)
    · exact fitIn_rings (raise_rings s _)
  split
  · exact fitIn_rings (raise_rings s _)
  · unfold notifyChannelTail
    split
    · exact fitIn_rings (raise_rings s _)
    · exact fitIn_rings (settleLink_rings _)

theorem fitIn_notifyCqHead (ring : BitVec 8) (index : BitVec 16) (s : State) :
    s.FitIn (execNotifyCqHead ring index s) := by
  unfold execNotifyCqHead
  split
  · exact fitIn_same
  split
  · exact fitIn_rings (raise_rings s _)
  split
  · exact fitIn_next ((staysFit_takeHead s _ _).trans (staysFit_conclude _))
  · exact fitIn_rings (raise_rings s _)

theorem takeBeat_rings (s : State) (token : BitVec 8) : (takeBeat s token).rings = s.rings := by
  unfold takeBeat
  simp only
  split
  · rfl
  · rfl
  · split
    · rfl
    · split
      · exact raiseAlert_rings _ _
      · rfl
  · split <;> rfl

/-! ### Refresh, self-refresh and timers -/

theorem scrubLineEnd_rings (s : State) (fs : List Finding) : (scrubLineEnd s fs).rings = s.rings := by
  unfold scrubLineEnd
  simp only
  rw [settlePort_rings, reportFindings_rings]
  split <;> rfl

theorem fitIn_scrubLine (fs : List Finding) (s : State) : s.FitIn (execScrubLine fs s) := by
  unfold execScrubLine
  split
  · split
    · exact fitIn_rings (scrubLineEnd_rings s fs)
    · exact fitIn_fault _
  · exact fitIn_same

theorem intervalExpired_rings (s : State) : (intervalExpired s).rings = s.rings := by
  refine (settlePort_rings _).trans ?_
  show (accrue s).rings = s.rings
  unfold accrue
  split
  · rfl
  · exact raise_rings _ _

theorem fitIn_intervalExpiry (s : State) : s.FitIn (execIntervalExpiry s) := by
  unfold execIntervalExpiry
  split
  · exact fitIn_same
  split
  · exact fitIn_same
  · exact fitIn_next ((staysFit_elapse s _).trans (.of_rings (intervalExpired_rings _)))

theorem scrubTicked_rings (s : State) : (scrubTicked s).rings = s.rings := by
  unfold scrubTicked
  simp only
  split
  · rfl
  · exact settlePort_rings _

theorem fitIn_scrubTick (s : State) : s.FitIn (execScrubTick s) := by
  unfold execScrubTick
  split
  · exact fitIn_same
  split
  · exact fitIn_same
  · exact fitIn_next ((staysFit_elapse s _).trans (.of_rings (scrubTicked_rings _)))

theorem staysFit_delayExpired (s : State) (r : Fin 9) : s.StaysFit (delayExpired s r) := by
  unfold delayExpired
  split
  · exact staysFit_sendVector s r
  · exact staysFit_setRing id

theorem fitIn_delayTimerExpiry (r : Fin 9) (s : State) : s.FitIn (execDelayTimerExpiry r s) := by
  unfold execDelayTimerExpiry
  split
  · exact fitIn_same
  split
  · exact fitIn_same
  · exact fitIn_next ((staysFit_elapse s _).trans (staysFit_delayExpired _ r))

theorem fitIn_periodTimerExpiry (s : State) : s.FitIn (execPeriodTimerExpiry s) :=
  fitIn_ite fun _ => fitIn_next ((staysFit_elapse s _).trans (.of_rings (raiseAlert_rings _ _)))

theorem graceExpired_rings (s : State) : (graceExpired s).rings = s.rings := by
  unfold graceExpired trigger
  split
  · exact startDrain_rings _ _
  · rfl

theorem fitIn_graceTimerExpiry (s : State) : s.FitIn (execGraceTimerExpiry s) :=
  fitIn_ite fun _ => fitIn_next ((staysFit_elapse s _).trans (staysFit_concluded (graceExpired_rings _)))

theorem staysFit_deadlineExpired (s : State) : s.StaysFit (deadlineExpired s) := by
  unfold deadlineExpired
  split
  · exact staysFit_endFlush s _
  · exact .of_rings

theorem fitIn_drainDeadlineExpiry (s : State) : s.FitIn (execDrainDeadlineExpiry s) := by
  unfold execDrainDeadlineExpiry
  split
  · exact fitIn_same
  split
  · exact fitIn_same
  · exact fitIn_next ((staysFit_elapse s _).trans ((staysFit_deadlineExpired _).trans (staysFit_conclude _)))

/-- A self-refresh exit sets ring 0 up, empty (R79, R163). -/
theorem fitIn_selfRefreshExit (s : State) : s.FitIn (execSelfRefreshExit s) :=
  fitIn_ite fun _ => fitIn_next
    (((staysFit_setUpAdminRing _).after (by rfl)).trans (staysFit_concluded (takeTriggers_rings (exitComplete s) _)))

/-! ### Completions (R81 to R83, R158) -/

theorem staysFit_writeFromAdmin {s : State} (f : Completion) (h : (s.ring 0).hasRoom = true) :
    s.StaysFit (writeFromAdmin s f) :=
  (staysFit_writeEntry (s := { s with admin := s.admin.posted }) f h).after

theorem staysFit_writeDrainAdmin {s : State} (f : Completion) (h : (s.ring 0).hasRoom = true) :
    s.StaysFit (writeDrainAdmin s f) := by
  unfold writeDrainAdmin
  exact (staysFit_writeEntry f (by exact h)).after

theorem staysFit_writeFromChannel {s : State} {r : Fin 9} (c : Fin 16) (f : Completion)
    (h : (s.ring r).hasRoom = true) : s.StaysFit (writeFromChannel s r c f) := by
  unfold writeFromChannel
  refine State.StaysFit.trans (.of_set (r := r) (x := { s.ring r with service := c }) rfl id) (staysFit_writeEntry f ?_)
  rw [State.setRing_ring_self]
  exact h

/-- The drain's admin completion is for ring 0 (R158). -/
theorem flushNext_admin_ring {s : State} {f : Completion} {r : Fin 9} (h : flushNext s = some (.admin, f, r)) :
    r = 0 := by
  unfold flushNext at h
  split at h
  · split at h <;> simp at h
  · obtain ⟨g, -, hg⟩ := Option.map_eq_some_iff.mp h
    simp only [Prod.mk.injEq] at hg
    exact hg.2.2.symm

theorem fitIn_completionWrite (r : Fin 9) (s : State) : s.FitIn (execCompletionWrite r s) := by
  unfold execCompletionWrite
  split
  · exact fitIn_same
  rename_i hno
  have hroom : (s.ring r).hasRoom = true := by simpa using (not_or.mp hno).2
  have hchannel : ∀ c f, s.FitIn (.next (conclude (writeFromChannel s r c f))) := fun c f =>
    fitIn_next ((staysFit_writeFromChannel c f hroom).trans (staysFit_conclude _))
  split
  · unfold writeAtWork
    split
    · subst_vars
      split
      · exact fitIn_same
      · exact fitIn_next ((staysFit_writeFromAdmin _ hroom).trans (staysFit_conclude _))
    · split
      · exact fitIn_same
      · split
        · exact fitIn_same
        · exact hchannel _ _
  split
  · unfold writeInFlush
    split
    · exact fitIn_same
    · rename_i hnext
      split
      · subst_vars
        split
        · obtain rfl := flushNext_admin_ring hnext
          exact fitIn_next ((staysFit_writeDrainAdmin _ hroom).trans (staysFit_conclude _))
        · exact hchannel _ _
      · exact fitIn_same
  · exact fitIn_same

theorem fitIn_completionDiscard (src : CompletionSource) (s : State) : s.FitIn (execCompletionDiscard src s) := by
  unfold execCompletionDiscard
  split
  · exact fitIn_same
  split
  · unfold discardAtWork
    split
    · exact fitIn_ite fun _ => fitIn_concluded
    · exact fitIn_ite fun _ => fitIn_concluded
  split
  · unfold discardInFlush
    split
    · exact fitIn_same
    · split
      · split <;> exact fitIn_concluded
      · exact fitIn_same
  · exact fitIn_same

/-! ### Descriptors and reads -/

theorem fitIn_slotSchedulerChoice (s : State) : s.FitIn (execSlotSchedulerChoice s) := by
  unfold execSlotSchedulerChoice
  split
  · exact fitIn_same
  split
  · exact fitIn_concluded (scheduleChoice_rings s _ _ _)
  · exact fitIn_same

theorem fitIn_presentation (k : Fin 4) (s : State) : s.FitIn (execPresentation k s) := by
  unfold execPresentation
  simp only
  split
  · exact fitIn_same
  split
  · exact fitIn_same
  split
  · exact fitIn_concluded (refuseSlot_rings s k _)
  · exact fitIn_concluded (enterRun_rings s k _)

theorem fitIn_readBurst (fs : List Finding) (s : State) : s.FitIn (execReadBurst fs s) := by
  unfold execReadBurst
  split
  · exact fitIn_same
  split
  · exact fitIn_same
  split
  · exact fitIn_concluded ((reportFindings_rings _ _).trans ((advanceSlot_rings _ _).trans
      (readTaken_rings (releasePort s) _ _ _ _)))
  · exact fitIn_fault _

theorem fitIn_writeBurst (s : State) : s.FitIn (execWriteBurst s) := by
  unfold execWriteBurst
  split
  · exact fitIn_same
  split
  · exact fitIn_same
  split
  · exact fitIn_concluded (advanceSlot_rings _ _)
  · exact fitIn_fault _

theorem fitIn_readModifyWrite (f : Finding) (s : State) : s.FitIn (execReadModifyWrite f s) := by
  unfold execReadModifyWrite
  split
  · exact fitIn_same
  split
  · exact fitIn_same
  split
  · simp only
    split <;> exact fitIn_concluded ((reportFindings_rings _ _).trans (advanceSlot_rings _ _))
  · exact fitIn_fault _

theorem staysFit_linkDownTaken (s : State) : s.StaysFit (linkDownTaken s) := by
  unfold linkDownTaken
  split
  · exact .of_rings (startDrain_rings s _)
  · split
    · exact staysFit_endFlush s _
    · exact .refl s

theorem fitIn_linkDown (s : State) : s.FitIn (execLinkDown s) :=
  fitIn_ite fun _ => fitIn_next
    (((staysFit_linkDownTaken (linkLost s)).after (failAllTags_rings s.unplugged)).trans (staysFit_conclude _))

theorem linkResetTaken_rings (s : State) : (linkResetTaken s).rings = s.rings := by
  unfold linkResetTaken
  split
  · exact startDrain_rings s _
  · split <;> rfl

theorem fitIn_linkReset (s : State) : s.FitIn (execLinkReset s) :=
  fitIn_ite fun _ => fitIn_concluded
    ((linkResetTaken_rings (linkCleared s)).trans (failAllTags_rings s.windowReset))

theorem fitIn_hostReadData (g : Fin 16) (bs : List Byte) (s : State) : s.FitIn (execHostReadData g bs s) := by
  unfold execHostReadData
  simp only
  split
  · exact fitIn_same
  split
  · exact fitIn_rings
  · exact fitIn_concluded (readDone_rings _ _ _)

theorem fitIn_readErrorReturn (g : Fin 16) (s : State) : s.FitIn (execReadErrorReturn g s) := by
  unfold execReadErrorReturn
  split
  · exact fitIn_same
  · exact fitIn_concluded (readFailed_rings _ _)

theorem fitIn_linkReadTimeout (g : Fin 16) (s : State) : s.FitIn (execLinkReadTimeout g s) := by
  unfold execLinkReadTimeout
  split
  · exact fitIn_same
  · exact fitIn_next ((staysFit_elapse s _).trans (staysFit_concluded (readFailed_rings _ _)))

theorem fitIn_quarantineEnd (g : Fin 16) (s : State) : s.FitIn (execQuarantineEnd g s) := by
  unfold execQuarantineEnd
  split
  · exact fitIn_same
  · exact fitIn_next ((staysFit_elapse s _).trans (.of_rings (settleLink_rings _)))

/-! ### Power -/

theorem fitIn_memoryInitialisation (success : Bool) (s : State) : s.FitIn (execMemoryInitialisation success s) := by
  unfold execMemoryInitialisation
  split
  · split
    · split
      · exact fitIn_next (((staysFit_settleStandby (arrayReady s)).after).trans (staysFit_conclude _))
      · exact fitIn_concluded
    · exact fitIn_rings
  · exact fitIn_same

theorem fitIn_pwrWarnAsserted (s : State) : s.FitIn (execPwrWarnAsserted s) := by
  unfold execPwrWarnAsserted
  simp only
  split
  · exact fitIn_same
  split
  · exact fitIn_rings
  split
  · exact fitIn_concluded (startDrain_rings _ _)
  split
  · exact fitIn_next (((staysFit_settleStandby _).after (by rfl)).trans (staysFit_conclude _))
  · exact fitIn_rings

/-! ### Every command -/

theorem exec_fitIn (i : Instr) (s : State) : s.FitIn (exec i s) := by
  cases i with
  | powerOn => exact fitIn_ite fun _ => fitIn_next (.of_none rfl)
  | warmStart => exact fitIn_ite fun _ => fitIn_next (.of_none rfl)
  | memoryInitialisation success => exact fitIn_memoryInitialisation success s
  | coreLogicPowerDown => exact fitIn_ite fun _ => fitIn_rings
  | pwrWarnAsserted => exact fitIn_pwrWarnAsserted s
  | pwrWarnDeasserted => exact fitIn_rings
  | mainPowerLoss => exact fitIn_ite fun _ => fitIn_rings
  | mainPowerReturn => exact fitIn_rings
  | backupSupplyFailure => exact fitIn_ite fun _ => fitIn_rings
  | linkDown => exact fitIn_linkDown s
  | linkUp => exact fitIn_ite fun _ => fitIn_rings (settleLink_rings _)
  | linkReset => exact fitIn_linkReset s
  | hostReadData g bs => exact fitIn_hostReadData g bs s
  | readErrorReturn g => exact fitIn_readErrorReturn g s
  | linkReadTimeout g => exact fitIn_linkReadTimeout g s
  | quarantineEnd g => exact fitIn_quarantineEnd g s
  | messageEnable e g => exact fitIn_ite fun _ => fitIn_rings
  | enable => exact fitIn_enable s
  | quiesce => exact fitIn_ite fun _ => fitIn_concluded
  | functionReset => exact fitIn_functionReset s
  | adminRingWrite f p v => exact fitIn_ite fun _ => fitIn_rings
  | notifySqTail r n => exact fitIn_notifySqTail r n s
  | notifyCqHead r n => exact fitIn_notifyCqHead r n s
  | heartbeatWrite v => exact fitIn_ite fun _ => fitIn_rings (takeBeat_rings s _)
  | eventsWrite v => exact fitIn_ite fun _ => fitIn_rings
  | registerWriteIgnored o w v => exact fitIn_same
  | definePartition =>
    exact (fitIn_takenBeside (fun s r => withPartition_rings (definePart_rings s r)) s :
      s.FitIn (execDefinePartition s))
  | freezePartition =>
    exact (fitIn_takenBeside (fun s _ => withPartition_rings (freezePart_rings s)) s :
      s.FitIn (execFreezePartition s))
  | releasePartition =>
    exact (fitIn_takenBeside (fun s _ => withPartition_rings (releasePart_rings s)) s :
      s.FitIn (execReleasePartition s))
  | clearTorn =>
    exact (fitIn_takenBeside (fun s _ => withPartition_rings (clearTornPart_rings s)) s : s.FitIn (execClearTorn s))
  | getPartitions => exact (fitIn_takenBeside getPartitions_rings s : s.FitIn (execGetPartitions s))
  | createChannel => exact (fitIn_taken staysFit_createChannel s : s.FitIn (execCreateChannel s))
  | deleteChannel =>
    exact (fitIn_takeCommand staysFit_conclude (fun s _ => .of_rings (withChannel_rings (deleteChan_rings s))) s :
      s.FitIn (execDeleteChannel s))
  | pauseChannel =>
    exact (fitIn_takenBeside (fun s _ => withChannel_rings (pauseChan_rings s)) s : s.FitIn (execPauseChannel s))
  | resumeChannel =>
    exact (fitIn_takenBeside (fun s _ => withChannel_rings (resumeChan_rings s)) s : s.FitIn (execResumeChannel s))
  | createCq => exact (fitIn_taken staysFit_createCq s : s.FitIn (execCreateCq s))
  | deleteCq => exact (fitIn_taken staysFit_deleteCq s : s.FitIn (execDeleteCq s))
  | setRefresh => exact (fitIn_takenBeside setRefresh_rings s : s.FitIn (execSetRefresh s))
  | setScrub => exact (fitIn_takenBeside setScrub_rings s : s.FitIn (execSetScrub s))
  | getHealth => exact (fitIn_takenBeside getHealth_rings s : s.FitIn (execGetHealth s))
  | clearErrors =>
    exact (fitIn_takenBeside (body := clearErrors) (fun _ _ => done_rings _ _ _) s : s.FitIn (execClearErrors s))
  | setMonitor => exact (fitIn_takenBeside setMonitor_rings s : s.FitIn (execSetMonitor s))
  | setLinkTimeout => exact (fitIn_takenBeside setLinkTimeout_rings s : s.FitIn (execSetLinkTimeout s))
  | setDrain => exact (fitIn_takenBeside setDrain_rings s : s.FitIn (execSetDrain s))
  | enterRetention =>
    exact (fitIn_takeCommand (body := fun s _ => .waits (startDrain s .hostRequest)) staysFit_conclude
      (fun s _ => .of_rings (startDrain_rings s _)) s : s.FitIn (execEnterRetention s))
  | getRetentionRecord => exact (fitIn_takenBeside getRetentionRecord_rings s : s.FitIn (execGetRetentionRecord s))
  | claimRetained => exact (fitIn_takenBeside claimRetained_rings s : s.FitIn (execClaimRetained s))
  | discardRetained => exact (fitIn_takenBeside discardRetained_rings s : s.FitIn (execDiscardRetained s))
  | unknownCommand => exact (fitIn_takenBeside (fun s _ => refused_rings s _) s : s.FitIn (execUnknownCommand s))
  | slotSchedulerChoice => exact fitIn_slotSchedulerChoice s
  | presentation k => exact fitIn_presentation k s
  | readBurst fs => exact fitIn_readBurst fs s
  | writeBurst => exact fitIn_writeBurst s
  | readModifyWrite f => exact fitIn_readModifyWrite f s
  | refresh => exact fitIn_ite fun _ => fitIn_rings (settlePort_rings _)
  | scrubLine fs => exact fitIn_scrubLine fs s
  | selfRefreshEntry => exact fitIn_ite fun _ => fitIn_rings (raise_rings _ _)
  | selfRefreshExit => exact fitIn_selfRefreshExit s
  | intervalExpiry => exact fitIn_intervalExpiry s
  | scrubTick => exact fitIn_scrubTick s
  | delayTimerExpiry r => exact fitIn_delayTimerExpiry r s
  | periodTimerExpiry => exact fitIn_periodTimerExpiry s
  | graceTimerExpiry => exact fitIn_graceTimerExpiry s
  | drainDeadlineExpiry => exact fitIn_drainDeadlineExpiry s
  | completionWrite r => exact fitIn_completionWrite r s
  | completionDiscard src => exact fitIn_completionDiscard src s
  | deleteConversion c => exact fitIn_ite fun _ => fitIn_concluded

theorem staysFit_idleTick (s : State) : s.StaysFit s.idleTick := by
  unfold State.idleTick
  split
  · exact (staysFit_elapse s _).trans .of_rings
  · exact .refl s

/-- Settles O7: time leaves a ring its entries, and every command keeps within its size a ring that is so. -/
theorem ringLawKept : Obligations.RingLawKept := by
  intro s t hs h r
  unfold step at h
  split at h
  · cases h
    exact staysFit_idleTick s r (hs r)
  · rename_i i rest _
    exact exec_fitIn i { s with pending := rest } t h r (hs r)

end Sys2Proof.Machine
end

section
/-! SUPPORT. The causes of EVENTS bit by bit (R94 to R96), and the commands that make and delete completion rings (R91,
R92): the checks of each as equations of its taking. -/

-- One theorem at a time, as in the tests above: fewer threads than the memory limit allows.
set_option Elab.async false

namespace Sys2Proof.Machine

/-! ### Causes raised and cleared (R94 to R96) -/

theorem Cause.bit_lt (c : Cause) : c.bit < 9 := by cases c <;> decide

/-- The bit order of R176 is the order in which the causes are listed. -/
theorem Cause.ofNat_bit (c : Cause) : Cause.ofNat c.bit = c := by cases c <;> rfl

theorem Cause.bit_injective : Function.Injective Cause.bit := Function.LeftInverse.injective Cause.ofNat_bit

theorem events_set_has_iff (e : Events) (c d : Cause) : (e.set c).has d = (e.has d || decide (d = c)) := by
  have hbit : c.bit = d.bit ↔ d = c := Cause.bit_injective.eq_iff.trans eq_comm
  simp [Events.has, Events.set, BitVec.getLsbD_twoPow, hbit, c.bit_lt]

theorem events_cleared_has (e : Events) (value : BitVec 32) (c : Cause) :
    (e.cleared value).has c = (e.has c && !value.getLsbD c.bit) := by
  simp [Events.has, Events.cleared, c.bit_lt]

theorem raise_of_set {s : State} {c : Cause} (h : s.events.has c = true) : s.raise c = s := if_pos h

/-- A clear cause becomes set, and vector 0 goes where the link takes messages (R94). -/
theorem raise_of_clear {s : State} {c : Cause} (h : s.events.has c = false) :
    s.raise c = { s with events := s.events.set c, link := s.link.handed (.message 0) } := by
  rw [State.raise, if_neg (by simp [h]), handOut_handed]

theorem handed_message_eq (l : Link) (v : Nat) :
    l.handed (.message v) =
      { l with
        outbound := if l.up = true ∧ l.messageEnable = true then l.outbound ++ [.message v] else l.outbound } := by
  unfold Link.handed Link.takes
  simp only [Bool.and_eq_true]
  split <;> rfl

theorem exec_eventsWrite {s : State} (value : BitVec 32) (hcore : s.power.core = true) (hup : s.link.up = true) :
    exec (.eventsWrite value) s = .next { s with events := s.events.cleared value } :=
  congrArg Host.Outcome.next (if_pos (by simp [State.reached, hcore, hup]))

/-- Settles O25: a raised cause by whether it was set, a written one by its bit. -/
theorem eventsRaisedAndCleared : Obligations.EventsRaisedAndCleared := by
  refine ⟨fun s c => ⟨raise_of_set, fun h => ⟨fun d => ?_, ?_, raise_detail s c⟩⟩, fun value s hcore hup =>
    ⟨_, exec_eventsWrite value hcore hup, rfl, events_cleared_has s.events value, rfl⟩⟩
  · rw [raise_of_clear h]
    exact events_set_has_iff s.events c d
  · rw [← handed_message_eq, raise_of_clear h]

/-! ### CREATE_CQ (R91) -/

theorem exec_createCq (s : State) : exec .createCq s = takeCommand (· == 10) createCq settleLink s := rfl
theorem exec_deleteCq (s : State) : exec .deleteCq s = takeCommand (· == 11) deleteCq settleLink s := rfl

theorem cqFieldsValid_iff (r : Record) :
    cqFieldsValid r = true ↔
      (longAt r 16).toNat % 64 = 0 ∧ (∃ n : Fin 10, (halfAt r 14).toNat = 2 ^ (n.val + 3)) ∧
        1 ≤ (byteAt r 9).toNat ∧ (byteAt r 9).toNat ≤ 15 ∧ 1 ≤ (byteAt r 10).toNat ∧ (byteAt r 10).toNat ≤ 64 ∧
        (halfAt r 12).toNat ≤ 1000 := by
  simp only [cqFieldsValid, Bool.and_eq_true, decide_eq_true_eq, aligned64_iff, isRingSize_iff, and_assoc]

section
variable {s : State} {r : Record} {q : Fin 9}

theorem createCq_badId (hid : (byteAt r 8).toNat = 0 ∨ 9 ≤ (byteAt r 8).toNat) :
    createCq s r = .refused s .badId := by
  simp only [createCq, ioRingIndex_eq_none hid]

theorem createCq_eq (hid : (byteAt r 8).toNat = q.val) (hq : q ≠ 0) :
    createCq s r =
      if (s.ring q).state ≠ .absent then .refused s .alreadyExists
      else if cqFieldsValid r then .done (s.setRing q (newRing r)) .ok 0
      else .refused s .badParameter := by
  simp only [createCq, ioRingIndex_eq_some hid hq]

/-! ### DELETE_CQ (R92) -/

theorem deleteCq_badId (hid : (byteAt r 8).toNat = 0 ∨ 9 ≤ (byteAt r 8).toNat) :
    deleteCq s r = .refused s .badId := by
  simp only [deleteCq, ioRingIndex_eq_none hid]

theorem deleteCq_eq (hid : (byteAt r 8).toNat = q.val) (hq : q ≠ 0) :
    deleteCq s r =
      if (s.ring q).state = .absent then .refused s .notFound
      else if (s.ring q).bound ≠ 0 then .refused s .inUse
      else .done ((signalRest s q).setRing q Ring.none) .ok 0 := by
  simp only [deleteCq, ioRingIndex_eq_some hid hq]

end

/-- Of a ring that is replaced at once, the vector alone is left (R92). -/
theorem signalRest_setRing (s : State) (q : Fin 9) (x : Ring) :
    (signalRest s q).setRing q x =
      (if (s.ring q).state = .active ∧ 0 < (s.ring q).unsignalled then s.handOut (.message (s.ring q).vector)
        else s).setRing q x := by
  unfold signalRest
  split
  · exact setRing_setRing _ q _ x
  · rfl

/-- Taking a command does not touch what a ring's deletion changes. -/
theorem signalRest_setRing_begun (s : State) (f : Fetched) (rest : List Fetched) (q : Fin 9) (x : Ring) :
    (signalRest (beginCommand s f rest) q).setRing q x =
      { (if (s.ring q).state = .active ∧ 0 < (s.ring q).unsignalled then s.handOut (.message (s.ring q).vector)
          else s).setRing q x with admin := (beginCommand s f rest).admin } := by
  have hring : (beginCommand s f rest).ring q = s.ring q := rfl
  rw [signalRest_setRing, hring]
  split
  · rw [handOut_handed, handOut_handed]
    rfl
  · rfl

/-- Settles O45: each check of a command as one branch of its equation, then the branch that carries it out. -/
theorem completionRingCommands : Obligations.CompletionRingCommands := by
  intro s f rest q hq id x vector threshold inRange
  have hvalid : cqFieldsValid f.entry = true ↔ inRange := cqFieldsValid_iff f.entry
  have hc := exec_createCq s
  have hd := exec_deleteCq s
  refine ⟨fun ht => ⟨fun hid => completes_of_refused hc ht rfl (createCq_badId hid), fun hid => ?_⟩,
    fun ht => ⟨fun hid => completes_of_refused hd ht rfl (deleteCq_badId hid), fun hid => ?_⟩⟩
  · have hmade := createCq_eq (s := beginCommand s f rest) hid hq
    refine ⟨fun hx => completes_of_refused hc ht rfl (hmade.trans (if_pos hx)), fun hx => ?_⟩
    have habsent := hmade.trans (if_neg (not_not.mpr hx))
    exact ⟨fun hn => completes_of_refused hc ht rfl (habsent.trans (if_neg (mt hvalid.mp hn))),
      fun hok => completes_of_done hc ht rfl (habsent.trans (if_pos (hvalid.mpr hok)))⟩
  · have hgone := deleteCq_eq (s := beginCommand s f rest) hid hq
    refine ⟨fun hx => completes_of_refused hd ht rfl (hgone.trans (if_pos hx)), fun hx hb => ?_, fun hx hb => ?_⟩
    · exact completes_of_refused hd ht rfl (hgone.trans ((if_neg hx).trans (if_pos hb)))
    · refine completes_of_done hd ht rfl ((hgone.trans ((if_neg hx).trans (if_neg (not_not.mpr hb)))).trans ?_)
      rw [signalRest_setRing_begun]

end Sys2Proof.Machine
end

section
/-! SUPPORT. A drain begun and concluded (R155, R156): what its working record, its deadline timer and the stopped
blocks keep to the end of the happening. -/

-- One theorem at a time, as in the tests above: fewer threads than the memory limit allows.
set_option Elab.async false

namespace Sys2Proof.Machine

/-! ### What a drain keeps of its start (R155, R156) -/

/-- The two working records agree in what the trigger and the start of STOP wrote (R155, R156). -/
structure RetentionRecord.SameStart (v w : RetentionRecord) : Prop where
  reason    : w.reason = v.reason
  timestamp : w.timestamp = v.timestamp
  existed   : ∀ c, (w.channels.get c).existed = (v.channels.get c).existed
  head      : ∀ c, (w.channels.get c).head = (v.channels.get c).head

/-- A drain goes on: the start of its working record stays, and its deadline timer runs on until SETTLE (R155, R160). -/
structure Controller.DrainGoesOn (x y : Controller) : Prop where
  working  : x.working.SameStart y.working
  settled  : x.phase = .settle → y.phase = .settle
  deadline : y.phase = .settle ∨ y.deadline = x.deadline
  retained : y.retainedPending = x.retainedPending

theorem RetentionRecord.SameStart.refl (w : RetentionRecord) : w.SameStart w := ⟨rfl, rfl, fun _ => rfl, fun _ => rfl⟩

namespace Controller.DrainGoesOn

theorem refl (x : Controller) : x.DrainGoesOn x := ⟨.refl _, id, .inr rfl, rfl⟩

theorem trans {x y z : Controller} (h : x.DrainGoesOn y) (h' : y.DrainGoesOn z) : x.DrainGoesOn z where
  working :=
    { reason := h'.working.reason.trans h.working.reason
      timestamp := h'.working.timestamp.trans h.working.timestamp
      existed := fun c => (h'.working.existed c).trans (h.working.existed c)
      head := fun c => (h'.working.head c).trans (h.working.head c) }
  settled e := h'.settled (h.settled e)
  deadline := by
    obtain hz | hz := h'.deadline
    · exact .inl hz
    · exact h.deadline.imp h'.settled hz.trans
  retained := h'.retained.trans h.retained

/-- A descriptor that a drain terminated is counted in its channel's entry alone (R157). -/
theorem noted (c : Controller) (sl : Slot) (st : Status) : c.DrainGoesOn (c.noted sl st) := by
  unfold Controller.noted
  split
  · refine ⟨⟨rfl, rfl, fun d => ?_, fun d => ?_⟩, id, .inr rfl, rfl⟩
    all_goals
      simp only [get_set]
      split
      · subst_vars
        rfl
      · rfl
  · exact .refl c

end Controller.DrainGoesOn

theorem drainGoesOn_endSlot (s : State) (k : Fin 4) (st : Status) : s.ctl.DrainGoesOn (endSlot s k st).ctl := by
  rw [endSlot_frame]
  show s.ctl.DrainGoesOn (if (s.slot k).stop = .silent then s.ctl else s.ctl.noted (s.slot k) st)
  split
  · exact .refl _
  · exact .noted _ _ _

theorem drainGoesOn_leaveRun (s : State) (k : Fin 4) (sl : Slot) : s.ctl.DrainGoesOn (leaveRun s k sl).ctl := by
  obtain ⟨y, -, -, e | e⟩ := leaveRun_cases s k sl
  · rw [e]
    exact .refl s.ctl
  · rw [e]
    exact drainGoesOn_endSlot ((orphanReads s k).setSlot k y) k _

theorem drainGoesOn_stopSlot (s : State) (k : Fin 4) (q : StopRequest) : s.ctl.DrainGoesOn (stopSlot s k q).ctl := by
  cases h : (s.slot k).state with
  | idle =>
    rw [stopSlot_idle q h]
    exact .refl _
  | check =>
    rw [stopSlot_check q h]
    exact drainGoesOn_endSlot (s.setSlot k { s.slot k with state := .ending, cause := q.cause, stop := q }) k _
  | run =>
    rw [stopSlot_run q h]
    exact drainGoesOn_leaveRun s k _
  | ending =>
    rw [stopSlot_ending q h]
    exact .refl s.ctl

theorem drainGoesOn_stopAllSlots (s : State) (q : StopRequest) : s.ctl.DrainGoesOn (stopAllSlots s q).ctl :=
  List.foldlRecOn allSlots _ (motive := fun u => s.ctl.DrainGoesOn u.ctl) (.refl _)
    fun u hu k _ => hu.trans (drainGoesOn_stopSlot u k q)

theorem drainGoesOn_allStopped (s : State) : s.ctl.DrainGoesOn s.allStopped.ctl := by
  have hentry : ∀ d, s.allStopped.ctl.working.channels.get d =
      (s.ctl.working.channels.get d).counting (s.chan d) := fun d => tabulate_get _ d
  refine ⟨⟨rfl, rfl, fun d => ?_, fun d => ?_⟩, id, .inr rfl, rfl⟩
  · rw [hentry]
    rfl
  · rw [hentry]
    rfl

theorem entryAtSettle_start (e : ChannelEntry) (x : Channel) :
    (entryAtSettle e x).existed = e.existed ∧ (entryAtSettle e x).head = e.head := by
  unfold entryAtSettle
  split <;> exact ⟨rfl, rfl⟩

theorem drainGoesOn_beginSettle (s : State) : s.ctl.DrainGoesOn (beginSettle s).ctl := by
  have hctl : (signalAll s).ctl = s.ctl := (congrArg State.ctl (signalAll_frame s) :)
  unfold beginSettle
  generalize signalAll s = v at hctl
  rw [← hctl]
  refine ⟨⟨rfl, rfl, fun d => ?_, fun d => ?_⟩, fun _ => rfl, .inl rfl, rfl⟩
  · exact (congrArg ChannelEntry.existed (tabulate_get _ d)).trans (entryAtSettle_start _ _).1
  · exact (congrArg ChannelEntry.head (tabulate_get _ d)).trans (entryAtSettle_start _ _).2

theorem drainGoesOn_endFlush (s : State) (o : FlushOutcome) : s.ctl.DrainGoesOn (endFlush s o).ctl :=
  have houtcome : s.ctl.DrainGoesOn (s.withOutcome o).ctl := ⟨⟨rfl, rfl, fun _ => rfl, fun _ => rfl⟩, id, .inr rfl, rfl⟩
  houtcome.trans (drainGoesOn_beginSettle (s.withOutcome o))

theorem drainGoesOn_endStop {s : State} (hp : s.ctl.phase = .stop) : s.ctl.DrainGoesOn (endStop s).ctl := by
  unfold endStop
  split
  · split
    · exact drainGoesOn_endFlush s _
    · exact ⟨.refl _, fun e => DrainPhase.noConfusion (hp.symm.trans e), .inr rfl, rfl⟩
  · exact drainGoesOn_beginSettle s

theorem drainGoesOn_stopStep (s : State) : s.ctl.DrainGoesOn (stopStep s).ctl := by
  by_cases h : s.ctl.op = .draining ∧ s.ctl.phase = .stop
  · rw [stopStep_on h.1 h.2]
    split
    · exact (drainGoesOn_allStopped s).trans (drainGoesOn_endStop h.2)
    · exact drainGoesOn_allStopped s
  · rw [stopStep_off (not_and_or.mp h)]
    exact .refl _

theorem drainGoesOn_flushStep (s : State) : s.ctl.DrainGoesOn (flushStep s).ctl := by
  unfold flushStep
  split
  · exact drainGoesOn_endFlush s _
  · exact .refl _

theorem drainGoesOn_settlePhases {s : State} (h : s.atWork = false) : s.ctl.DrainGoesOn (settlePhases s).ctl := by
  rw [settlePhases_notAtWork h]
  exact (drainGoesOn_stopStep s).trans (drainGoesOn_flushStep _)

/-! ### Slots that a drain stops (R72, R75) -/

/-- The slot is IDLE, or in ENDING under TERMINATED or SILENT. -/
def Slot.Stopped (x : Slot) : Prop := x.state = .idle ∨ (x.state = .ending ∧ (x.stop = .terminated ∨ x.stop = .silent))

theorem stopSlot_slot_ne (s : State) {k j : Fin 4} (q : StopRequest) (h : j ≠ k) :
    (stopSlot s k q).slot j = s.slot j := by
  cases hk : (s.slot k).state with
  | idle => rw [stopSlot_idle q hk]
  | check => rw [stopSlot_check q hk, endSlot_slot, if_neg h, setSlot_slot_ne s _ h]
  | run => rw [stopSlot_run q hk, leaveRun_slot_ne s _ h]
  | ending => rw [stopSlot_ending q hk, setSlot_slot_ne s _ h]

theorem StopRequest.after_terminated (q : StopRequest) :
    q.after .terminated = .terminated ∨ q.after .terminated = .silent := by
  unfold StopRequest.after
  split
  · exact .inr rfl
  · exact .inl rfl

theorem stopSlot_stopped (s : State) (k : Fin 4) : ((stopSlot s k .terminated).slot k).Stopped := by
  cases h : (s.slot k).state with
  | idle =>
    rw [stopSlot_idle _ h]
    exact .inl h
  | check =>
    rw [stopSlot_check _ h, endSlot_slot, if_pos rfl]
    exact .inl rfl
  | run =>
    rw [stopSlot_run _ h]
    obtain ⟨y, hy, hend, e | e⟩ := leaveRun_cases s k { s.slot k with cause := _, stop := .terminated }
    · rw [e, setSlot_slot]
      exact .inr ⟨hend, .inl hy.stop⟩
    · rw [e, endSlot_slot, if_pos rfl]
      exact .inl rfl
  | ending =>
    rw [stopSlot_ending _ h, setSlot_slot]
    exact .inr ⟨h, StopRequest.after_terminated _⟩

theorem stopAllSlots_stopped (s : State) (k : Fin 4) : ((stopAllSlots s .terminated).slot k).Stopped := by
  refine foldl_reaches (P := fun _ => True) (Q := fun u => (u.slot k).Stopped)
    (f := fun u j => stopSlot u j .terminated) (List.mem_finRange k) (fun _ _ _ _ => trivial)
    (fun u _ => stopSlot_stopped u k) (fun u j hu => ?_) trivial
  by_cases hj : k = j
  · rw [← hj]
    exact stopSlot_stopped u k
  · rw [stopSlot_slot_ne u _ hj]
    exact hu

theorem settlePort_stopped {s : State} {k : Fin 4} (h : (s.slot k).Stopped) : ((settlePort s).slot k).Stopped := by
  obtain e | ⟨-, e⟩ := settlePort_slot s k
  · rwa [e]
  · rw [e]
    exact h

/-! ### The start of a drain (R155, R156) -/

theorem entryAtStop_start (x : Channel) :
    (entryAtStop x).existed = (x.state != .absent) ∧ (x.state ≠ .absent → (entryAtStop x).head = x.head) := by
  unfold entryAtStop
  split
  · exact ⟨by simp [ChannelEntry.none, *], fun h => absurd ‹_› h⟩
  · exact ⟨by simp [*], fun _ => rfl⟩

theorem Monitor.disarmed_state (m : Monitor) : m.disarmed.state ≠ .armed ∧ m.disarmed.state ≠ .alert := by
  unfold Monitor.disarmed
  split
  · exact ⟨MonitorState.noConfusion, MonitorState.noConfusion⟩
  · exact not_or.mp ‹_›

/-- A drain as its trigger begins it, before the slots are stopped (R155, R156). -/
def State.drainSet (s : State) (reason : DrainReason) : State :=
  { s with
    ctl :=
      { s.ctl with
        op := .draining, phase := .stop, deadline := some (s.ctl.deadlineMs * Config.tenthsPerMilli), expired := false
        adminDone := drainCompletion s reason, resetInExit := false
        working :=
          { workingRecord s reason with
            adminTag := s.admin.command.map fun c => recordTag c.entry
            channels := tabulate 16 fun c => entryAtStop (s.chan c) } }
    monitor := s.monitor.disarmed
    scrub := s.scrub.halt
    admin := s.admin.stopped }

theorem startDrain_eq (s : State) (reason : DrainReason) :
    startDrain s reason = stopAllSlots (s.drainSet reason) .terminated := rfl

theorem startDrain_besides (s : State) (reason : DrainReason) :
    (startDrain s reason).monitor = s.monitor.disarmed ∧ (startDrain s reason).scrub = s.scrub.halt := by
  obtain ⟨ps, a, cs, w, ss, ts, h⟩ := stopAllSlots_eq (s.drainSet reason) .terminated
  rw [startDrain_eq, h]
  exact ⟨rfl, rfl⟩

theorem startDrain_notAtWork (s : State) (reason : DrainReason) : (startDrain s reason).atWork = false := by
  simp [State.atWork, (startDrain_frame s reason).1]

theorem settleLink_scrub (s : State) : (settleLink s).scrub = s.scrub :=
  (congrArg State.scrub (besideTags_settleLink s) :)

theorem settlePort_scrub (s : State) : (settlePort s).scrub = s.scrub :=
  (congrArg State.scrub (settlePort_beside s) :)

theorem settlePhases_besides {s : State} (h : s.EntryLaw) :
    (settlePhases s).monitor = s.monitor ∧ (settlePhases s).scrub = s.scrub :=
  have hbeside := (settlePhases_entryLaw h).2
  ⟨(congrArg State.monitor hbeside :), (congrArg State.scrub hbeside :)⟩

theorem conclude_besides {s : State} (h : s.EntryLaw) :
    (conclude s).monitor = s.monitor ∧ (conclude s).scrub = s.scrub := by
  obtain ⟨hmon, hscrub⟩ := settlePhases_besides h
  refine ⟨(conclude_concluded s).monitor.trans hmon, ?_⟩
  rw [conclude, settlePort_scrub, settleLink_scrub, hscrub]

theorem refreshRequests_slot (s : State) (k : Fin 4) : (refreshRequests s).slot k = s.slot k := rfl

theorem conclude_startDrain_besides (s : State) (reason : DrainReason) :
    (conclude (startDrain s reason)).monitor = s.monitor.disarmed ∧
      (conclude (startDrain s reason)).scrub = s.scrub.halt := by
  obtain ⟨hmon, hscrub⟩ := conclude_besides (s := startDrain s reason) fun _ => (startDrain_frame s reason).1
  obtain ⟨hmon', hscrub'⟩ := startDrain_besides s reason
  exact ⟨hmon.trans hmon', hscrub.trans hscrub'⟩

theorem startDrain_goesOn (s : State) (reason : DrainReason) :
    (s.drainSet reason).ctl.DrainGoesOn (conclude (startDrain s reason)).ctl := by
  rw [(conclude_concluded (startDrain s reason)).ctl]
  exact (drainGoesOn_stopAllSlots (s.drainSet reason) .terminated).trans
    (drainGoesOn_settlePhases (startDrain_notAtWork s reason))

/-- With no slot in RUN, the end of a happening outside ACTIVE and QUIESCING withdraws requests and grants no tag. -/
theorem settleLink_startDrain (s : State) (reason : DrainReason) :
    settleLink (settlePhases (startDrain s reason)) = refreshRequests (settlePhases (startDrain s reason)) := by
  obtain ⟨hop, -, -, hrun⟩ := startDrain_frame s reason
  obtain ⟨hslots, hop', -⟩ := settlePhases_frame (startDrain_notAtWork s reason)
  refine settleLink_withdrawn (.inr ⟨?_, fun k => ?_⟩)
  · rw [hop', hop]
    exact OpState.noConfusion
  · rw [State.slot, hslots]
    exact hrun k

theorem startDrain_slot_stopped (s : State) (reason : DrainReason) (k : Fin 4) :
    ((conclude (startDrain s reason)).slot k).Stopped := by
  refine settlePort_stopped ?_
  rw [settleLink_startDrain, refreshRequests_slot, State.slot, (settlePhases_frame (startDrain_notAtWork s reason)).1]
  exact stopAllSlots_stopped (s.drainSet reason) k

theorem startDrain_unasked (s : State) (reason : DrainReason) :
    (∀ c, (conclude (startDrain s reason)).fetchOf c ≠ .requesting) ∧
      (conclude (startDrain s reason)).adminFetch ≠ .requesting := by
  have hc := conclude_concluded (startDrain s reason)
  have hop : (settlePhases (startDrain s reason)).ctl.op ≠ .active := by
    rw [(settlePhases_frame (startDrain_notAtWork s reason)).2.1, (startDrain_frame s reason).1]
    exact OpState.noConfusion
  obtain ⟨hf, ha⟩ := refreshRequests_unasked hop
  rw [← settleLink_startDrain] at hf ha
  refine ⟨fun c => ?_, by rwa [hc.admin]⟩
  rw [State.fetchOf, hc.fetch]
  exact hf c

/-- A drain that a trigger starts has begun when the happening is concluded (R155, R156). -/
theorem drainBegun_startDrain (s : State) (reason : DrainReason) :
    DrainBegun s (conclude (startDrain s reason)) reason s.time.micros := by
  have hwork := startDrain_notAtWork s reason
  have hc := conclude_concluded (startDrain s reason)
  obtain ⟨hrec, -, hdeadline, hretained⟩ := startDrain_goesOn s reason
  have hfalls := (falls_startDrain s reason).trans (falls_settlePhases hwork)
  obtain ⟨hmon, hscrub⟩ := conclude_startDrain_besides s reason
  have hentry : ∀ c, (s.drainSet reason).ctl.working.channels.get c = entryAtStop (s.chan c) :=
    fun c => tabulate_get _ c
  obtain ⟨hf, ha⟩ := startDrain_unasked s reason
  refine ⟨?_, hrec.reason, hrec.timestamp, fun c => ⟨?_, fun hx => ?_⟩, hdeadline, ?_, ?_, ?_, ?_,
    startDrain_slot_stopped s reason, hf, ha, hc.mem.trans hfalls.mem, ?_, hretained⟩
  · rw [hc.ctl, (settlePhases_frame hwork).2.1, (startDrain_frame s reason).1]
  · rw [hrec.existed, hentry, (entryAtStop_start _).1]
  · rw [hrec.head, hentry, (entryAtStop_start _).2 hx]
  · rw [hscrub]
    rfl
  · rw [hscrub]
    rfl
  · rw [hmon]
    exact (Monitor.disarmed_state _).1
  · rw [hmon]
    exact (Monitor.disarmed_state _).2
  · rw [hc.ctl, hfalls.record]

end Sys2Proof.Machine
end

section
/-! SUPPORT. ENABLE (R79, R151, R152, R163): what it answers in each operating state. Settles O33. -/

-- One theorem at a time, as in the tests above: fewer threads than the memory limit allows.
set_option Elab.async false

namespace Sys2Proof.Machine

/-- The ADMIN_RING values that ENABLE takes (R152): a size that is a power of two from 2^3 to 2^8, and bases that are
multiples of 64. -/
def AdminRingRegister.Good (reg : AdminRingRegister) : Prop :=
  (∃ n : Fin 6, reg.size.toNat = 2 ^ (n.val + 3)) ∧ reg.submissionBase.toNat % 64 = 0 ∧
    reg.completionBase.toNat % 64 = 0

theorem isRingSize_256_iff {n : Nat} : isRingSize 8 256 n = true ↔ ∃ e : Fin 6, n = 2 ^ (e.val + 3) := by
  have hcut : isRingSize 8 256 n = true ↔ isRingSize 8 4096 n = true ∧ n ≤ 256 := by
    simp only [isRingSize, Bool.and_eq_true, decide_eq_true_eq]
    constructor
    · rintro ⟨⟨hlo, hhi⟩, hmem⟩
      exact ⟨⟨⟨hlo, hhi.trans (by omega)⟩, hmem⟩, hhi⟩
    · rintro ⟨⟨⟨hlo, -⟩, hmem⟩, hhi⟩
      exact ⟨⟨hlo, hhi⟩, hmem⟩
  rw [hcut, isRingSize_iff]
  constructor
  · rintro ⟨⟨e, rfl⟩, hle⟩
    have he : e.val + 3 ≤ 8 := (Nat.pow_le_pow_iff_right (a := 2) (by omega)).mp hle
    exact ⟨⟨e.val, by omega⟩, rfl⟩
  · rintro ⟨e, rfl⟩
    exact ⟨⟨⟨e.val, by omega⟩, rfl⟩, Nat.pow_le_pow_right (n := 2) (by omega) (by omega : e.val + 3 ≤ 8)⟩

theorem AdminRingRegister.valid_iff (reg : AdminRingRegister) : reg.valid = true ↔ reg.Good := by
  simp only [AdminRingRegister.valid, AdminRingRegister.Good, Bool.and_eq_true, isRingSize_256_iff, aligned64_iff,
    and_assoc]

/-! ### What ENABLE answers (R151) -/

section
variable {s : State} (hcore : s.power.core = true)
include hcore

theorem exec_enable_standby (ho : s.ctl.op = .standby) :
    exec .enable s = .next (if s.adminRing.valid then enableStandby s else s.raise .enableRefused) := by
  show execEnable s = _
  simp [execEnable, hcore, ho]

theorem exec_enable_retained (ho : s.ctl.op = .retained) (hm : s.memState = .selfRefresh) :
    exec .enable s =
      .next (if s.power.pwrWarn = false ∧ s.adminRing.valid = true then beginExit s else s.raise .enableRefused) := by
  show execEnable s = _
  simp [execEnable, hcore, ho, hm]

theorem exec_enable_exiting (ho : s.ctl.op = .retained) (hm : s.memState ≠ .selfRefresh) :
    exec .enable s = .next s := by
  show execEnable s = _
  simp [execEnable, hcore, ho, hm]

end

theorem exec_enable_elsewhere {s : State} (hs : s.ctl.op ≠ .standby) (hr : s.ctl.op ≠ .retained) :
    exec .enable s = .next s := by
  show execEnable s = _
  cases ho : s.ctl.op with
  | standby => exact absurd ho hs
  | retained => exact absurd ho hr
  | init | active | quiescing | draining | memoryFault => simp [execEnable, ho]

/-! ### ENABLE in STANDBY (R79, R152) -/

/-- ACTIVE with the admin ring and ring 0 set up from the ADMIN_RING values (R79, R152). -/
def State.enabled (s : State) : State := setUpAdminRing { s with ctl := { s.ctl with op := .active } }

theorem enableStandby_linkUp {s : State} (h : s.link.up = true) : enableStandby s = conclude s.enabled := by
  simp [enableStandby, State.enabled, h]

theorem enableStandby_linkDown {s : State} (h : s.link.up = false) :
    enableStandby s = conclude (startDrain s.enabled .linkDown) := by
  simp [enableStandby, State.enabled, h]

/-- In STANDBY no self-refresh entry is requested, and ENABLE requests none. -/
theorem enabled_entryLaw {s : State} (ho : s.ctl.op = .standby) (h : s.EntryLaw) : s.enabled.EntryLaw := fun e => by
  have hd : s.ctl.op = .draining := h e
  rw [ho] at hd
  cases hd

/-- Settles O33: by the operating state; with the link down, the drain that starts has begun by
`drainBegun_startDrain`. -/
theorem enableTaken : Obligations.EnableTaken := by
  intro s hcore
  have hgood := s.adminRing.valid_iff
  refine ⟨fun ho hlaw => ⟨fun hg hup => ?_, fun hg hdown => ?_, fun hg => ?_⟩,
    fun ho hm => ⟨fun hg => ?_, fun hg => ?_⟩,
    fun ho hm => exec_enable_exiting hcore ho (by rw [hm]; exact MemState.noConfusion), exec_enable_elsewhere⟩
  · have hx : exec .enable s = .next (conclude s.enabled) := by
      rw [exec_enable_standby hcore ho, if_pos (hgood.mpr hg), enableStandby_linkUp hup]
    exact concludes_of_next hx (enabled_entryLaw ho hlaw)
  · refine ⟨conclude (startDrain s.enabled .linkDown), ?_, drainBegun_startDrain s.enabled .linkDown⟩
    rw [exec_enable_standby hcore ho, if_pos (hgood.mpr hg), enableStandby_linkDown hdown]
  · rw [exec_enable_standby hcore ho, if_neg fun e => hg (hgood.mp e)]
  · rw [exec_enable_retained hcore ho hm, if_pos ⟨hg.2, hgood.mpr hg.1⟩]
    rfl
  · rw [exec_enable_retained hcore ho hm, if_neg fun e => hg ⟨hgood.mp e.2, e.1⟩]

end Sys2Proof.Machine
end

section
/-! SUPPORT. A state that refutes the step lemma of the retained law (R160). -/

-- One theorem at a time, as in the tests above: fewer threads than the memory limit allows.
set_option Elab.async false

namespace Sys2Proof.Machine

/-! ### The retained law is not kept from every state it admits

The law says of a state in RETAINED that every slot is IDLE, and of the port only that a self-refresh entry has let it
go. It admits slot 0 IDLE with a read burst at the port: `idleAtPort`, taken in RETAINED. That burst found uncorrectable
puts the slot into ENDING with a piece to deliver (R66), and the state is RETAINED still. -/

/-- `idleAtPort` in RETAINED. -/
def retainedAtPort : State := { idleAtPort with ctl := { idleAtPort.ctl with op := .retained } }

/-- What the read burst of `retainedAtPort` leaves. -/
def afterRetainedAtPort : State :=
  readBurstEnd { retainedAtPort with pending := [] } 0 { kind := .read, pos := 0, addr := 0, len := 8 }
    [{ condition := .uncorrectable, data := none }]

theorem retainedAtPort_retainedLaw : retainedAtPort.RetainedLaw := by
  unfold State.RetainedLaw State.settling
  decide +kernel

theorem step_retainedAtPort : step retainedAtPort = .next afterRetainedAtPort := by
  have hstep : step retainedAtPort =
      execReadBurst [{ condition := .uncorrectable, data := none }] { retainedAtPort with pending := [] } := rfl
  have hcore : ¬ { retainedAtPort with pending := [] }.power.core = false := by decide
  have hslot : slotAtPort { retainedAtPort with pending := [] } .read =
      some (0, { kind := .read, pos := 0, addr := 0, len := 8 }) := slotAtPort_idleAtPort
  have hin : withinArray { retainedAtPort with pending := [] } { kind := .read, pos := 0, addr := 0, len := 8 } = true := by
    decide
  rw [hstep, execReadBurst, if_neg hcore]
  simp only [hslot, hin, if_true]
  rfl

theorem afterRetainedAtPort_retained : afterRetainedAtPort.ctl.op = .retained := by decide +kernel

theorem afterRetainedAtPort_ending : (afterRetainedAtPort.slot 0).state = .ending := by decide +kernel

/-- Refutes O10: from `retainedAtPort` a step leaves slot 0 in ENDING in RETAINED. -/
theorem not_retainedLawKept : ¬ Obligations.RetainedLawKept := by
  unfold Obligations.RetainedLawKept
  rintro ⟨hkept, -⟩
  obtain ⟨-, hidle, -⟩ := hkept _ _ retainedAtPort_retainedLaw step_retainedAtPort
  have hslot := hidle afterRetainedAtPort_retained 0
  rw [afterRetainedAtPort_ending] at hslot
  cases hslot

end Sys2Proof.Machine
end

section
/-! SUPPORT. The Health Store's report of a read (R104, R123, R124): what one offered line does, and what the lines of a
report do together. Settles O56. -/

-- One theorem at a time, as in the tests above: fewer threads than the memory limit allows.
set_option Elab.async false

namespace Sys2Proof.Machine

/-! ### Bad lines, each once (R104) -/

theorem eraseRepsBy_loop_rises {a : Nat} (l acc : List Nat) (hl : (a :: l).Pairwise (· ≤ ·))
    (hacc : (a :: acc).Pairwise (· > ·)) : (List.eraseRepsBy.loop (· == ·) a l acc).Pairwise (· < ·) := by
  induction l generalizing a acc with
  | nil => exact List.pairwise_reverse.mpr hacc
  | cons b l ih =>
    obtain ⟨ha, hbl⟩ := List.pairwise_cons.mp hl
    unfold List.eraseRepsBy.loop
    split
    · rename_i hab
      obtain rfl : a = b := by simpa using hab
      exact ih acc hbl hacc
    · rename_i hab
      have hlt : a < b := lt_of_le_of_ne (ha b List.mem_cons_self) (by simpa using hab)
      refine ih (a :: acc) hbl (List.pairwise_cons.mpr ⟨fun c hc => ?_, hacc⟩)
      obtain rfl | hc := List.mem_cons.mp hc
      · exact hlt
      · exact lt_trans ((List.pairwise_cons.mp hacc).1 c hc) hlt

/-- Repetitions erased, ascending numbers rise. -/
theorem eraseReps_rises {l : List Nat} (h : l.Pairwise (· ≤ ·)) : l.eraseReps.Pairwise (· < ·) := by
  cases l with
  | nil => exact .nil
  | cons a l => exact eraseRepsBy_loop_rises l [] h (List.pairwise_singleton _ a)

theorem badLines_nodup {ws : List (Nat × Finding)} (h : ws.Pairwise fun v w => v.1 < w.1) : (badLines ws).Nodup := by
  refine (eraseReps_rises (List.pairwise_map.mpr ((h.filter _).imp fun hvw => ?_))).imp ne_of_lt
  exact Nat.mul_le_mul_right 64 (Nat.div_le_div_right hvw.le)

/-! ### One line offered (R124) -/

/-- The lines that the error address list does not hold. -/
def HealthStore.absent (h : HealthStore) (l : List Nat) : List Nat := l.filter fun a => !h.lines.contains a

/-- The room that the error address list has (R124). -/
def HealthStore.room (h : HealthStore) : Nat := 8 - h.lines.length

/-- The store after absent lines are offered: they join while there is room, and the others are counted (R124). -/
def HealthStore.taking (h : HealthStore) (lines : List Nat) : HealthStore :=
  { h with
    lines := h.lines ++ lines.take h.room
    overflow := min 255 (h.overflow + (lines.length - h.room)) }

/-- One line joined at the tail. -/
def HealthStore.joined (h : HealthStore) (a : Nat) : HealthStore := { h with lines := h.lines ++ [a] }

/-- One line counted as overflow. -/
def HealthStore.overflowed (h : HealthStore) : HealthStore := { h with overflow := raised 255 1 h.overflow }

theorem raise_has (s : State) (c d : Cause) : (s.raise c).events.has d = (s.events.has d || decide (d = c)) := by
  rw [raise_events]
  split
  · by_cases hd : d = c <;> simp [*]
  · exact events_set_has_iff _ _ _

theorem offerLine_listed {s : State} {a : Nat} (h : a ∈ s.health.lines) : offerLine s a = s := by
  simp [offerLine, h]

theorem offerLine_joins {s : State} {a : Nat} (h : a ∉ s.health.lines) (hroom : s.health.lines.length < 8) :
    offerLine s a = { s with health := s.health.joined a }.raise .errorListAdded := by
  simp [offerLine, HealthStore.joined, h, hroom]

theorem offerLine_overflows {s : State} {a : Nat} (h : a ∉ s.health.lines) (hfull : 8 ≤ s.health.lines.length) :
    offerLine s a = { s with health := s.health.overflowed } := by
  simp [offerLine, HealthStore.overflowed, h, hfull]

theorem absent_cons_listed {h : HealthStore} {a : Nat} (ha : a ∈ h.lines) (l : List Nat) :
    h.absent (a :: l) = h.absent l := by simp [HealthStore.absent, ha]

theorem absent_cons {h : HealthStore} {a : Nat} (ha : a ∉ h.lines) (l : List Nat) :
    h.absent (a :: l) = a :: h.absent l := by simp [HealthStore.absent, ha]

/-- A line that joins is no other line of the report. -/
theorem absent_joined (h : HealthStore) {a : Nat} {l : List Nat} (ha : a ∉ l) :
    (h.joined a).absent l = h.absent l := by
  refine List.filter_congr fun b hb => ?_
  have hba : b ≠ a := fun e => ha (e ▸ hb)
  simp [HealthStore.joined, hba]

theorem room_joined {h : HealthStore} {n : Nat} (hn : h.room = n + 1) (a : Nat) : (h.joined a).room = n := by
  simp only [HealthStore.room, HealthStore.joined, List.length_append, List.length_singleton] at hn ⊢
  omega

/-- The first absent line joins, and the others find the list one longer. -/
theorem taking_joined {h : HealthStore} {n : Nat} (hn : h.room = n + 1) (a : Nat) (lines : List Nat) :
    (h.joined a).taking lines = h.taking (a :: lines) := by
  unfold HealthStore.taking
  rw [room_joined hn, hn]
  simp [HealthStore.joined]

/-- With a full list every absent line is counted as overflow. -/
theorem taking_overflowed {h : HealthStore} (hfull : h.room = 0) (a : Nat) (lines : List Nat) :
    h.overflowed.taking lines = h.taking (a :: lines) := by
  have hfull' : h.overflowed.room = 0 := hfull
  have hcount : min 255 (raised 255 1 h.overflow + lines.length) = min 255 (h.overflow + (lines.length + 1)) := by
    unfold raised
    omega
  unfold HealthStore.taking
  rw [hfull, hfull']
  simpa [HealthStore.overflowed] using hcount

/-! ### The lines of a report (R104, R124) -/

/-- What the report of absent lines leaves of the Health Store and of EVENTS (R94, R124). -/
structure State.Lists (s t : State) (lines : List Nat) : Prop where
  health : t.health = s.health.taking lines
  causes : ∀ c, t.events.has c = (s.events.has c || decide (c = .errorListAdded ∧ lines ≠ [] ∧ 0 < s.health.room))
  detail : t.events.detail = s.events.detail

theorem lists_none {s : State} (h : s.health.overflow ≤ 255) : s.Lists s [] where
  health := by simp [HealthStore.taking, h]
  causes := by simp
  detail := rfl

theorem raise_health (s : State) (c : Cause) : (s.raise c).health = s.health := by
  obtain ⟨e, q, h⟩ := raise_eq s c
  rw [h]

theorem lists_joined {s t : State} {a n : Nat} {lines : List Nat} (hn : s.health.room = n + 1)
    (h : ({ s with health := s.health.joined a }.raise .errorListAdded).Lists t lines) : s.Lists t (a :: lines) := by
  obtain ⟨hh, hc, hd⟩ := h
  rw [raise_health] at hh hc
  refine ⟨hh.trans (taking_joined hn a lines), fun c => ?_, hd.trans (raise_detail _ _)⟩
  rw [hc, raise_has, hn]
  by_cases he : c = .errorListAdded <;> simp [he]

theorem lists_overflowed {s t : State} {a : Nat} {lines : List Nat} (hfull : s.health.room = 0)
    (h : ({ s with health := s.health.overflowed } : State).Lists t lines) : s.Lists t (a :: lines) := by
  obtain ⟨hh, hc, hd⟩ := h
  have hfull' : s.health.overflowed.room = 0 := hfull
  refine ⟨hh.trans (taking_overflowed hfull a lines), fun c => ?_, hd⟩
  rw [hc, hfull, hfull']
  simp

theorem foldl_offerLine_lists {s : State} {l : List Nat} (hl : l.Nodup) (ho : s.health.overflow ≤ 255) :
    s.Lists (l.foldl offerLine s) (s.health.absent l) := by
  induction l generalizing s with
  | nil => exact lists_none ho
  | cons a l ih =>
    obtain ⟨ha, hl⟩ := List.nodup_cons.mp hl
    rw [List.foldl_cons]
    by_cases hin : a ∈ s.health.lines
    · rw [offerLine_listed hin, absent_cons_listed hin]
      exact ih hl ho
    rw [absent_cons hin]
    by_cases hroom : s.health.lines.length < 8
    · obtain ⟨n, hn⟩ : ∃ n, s.health.room = n + 1 := ⟨7 - s.health.lines.length, by unfold HealthStore.room; omega⟩
      have hjoined := raise_health { s with health := s.health.joined a } .errorListAdded
      rw [offerLine_joins hin hroom]
      refine lists_joined hn ?_
      rw [← absent_joined s.health ha]
      generalize State.raise _ _ = u at hjoined
      have hu : u.health = s.health.joined a := hjoined
      rw [← hu]
      exact ih hl (hu ▸ ho)
    · have hfull := not_lt.mp hroom
      rw [offerLine_overflows hin hfull]
      exact lists_overflowed (Nat.sub_eq_zero_of_le hfull)
        (ih (s := { s with health := s.health.overflowed }) hl (Nat.min_le_left _ _))

/-- The Health Store with a report's words counted (R123). -/
def State.counted (s : State) (ws : List (Nat × Finding)) : State :=
  { s with
    health :=
      { s.health with
        correctable := raised 4294967295 (countWords ws .corrected) s.health.correctable
        uncorrectable := raised 4294967295 (countWords ws .uncorrectable) s.health.uncorrectable } }

theorem reportFindings_lists {s : State} {ws : List (Nat × Finding)} (ho : s.health.overflow ≤ 255)
    (hw : ws.Pairwise fun v w => v.1 < w.1) :
    (s.counted ws).Lists (reportFindings s ws) (s.health.absent (badLines ws)) :=
  foldl_offerLine_lists (s := s.counted ws) (badLines_nodup hw) ho

/-- A report changes the Health Store, the causes of EVENTS and the outbound queue alone. -/
theorem reportFindings_frame {s t : State} {ws : List (Nat × Finding)} (ht : t = reportFindings s ws)
    (hd : t.events.detail = s.events.detail) :
    t = { s with
          health := t.health, events := { s.events with causes := t.events.causes }
          link := { s.link with outbound := t.link.outbound } } := by
  obtain ⟨hs, e, q, h⟩ := reportFindings_eq s ws
  subst ht
  rw [h] at hd ⊢
  obtain ⟨causes, detail⟩ := e
  obtain rfl : detail = s.events.detail := hd
  rfl

/-! ### The obligation -/

/-- Settles O56: the report by induction on the lines offered, the lines written whole by the filter they are. -/
theorem healthReports : Obligations.HealthReports := by
  refine ⟨fun s ws hlaw hws => ?_, fun s written => ⟨fun a => ?_, List.filter_sublist, rfl⟩⟩
  · obtain ⟨-, -, -, -, -, -, -, ho⟩ := hlaw
    obtain ⟨hh, hc, hd⟩ := reportFindings_lists ho hws
    exact ⟨hh, hc, reportFindings_frame rfl hd⟩
  · simp [removeLines]

end Sys2Proof.Machine
end

section
/-! SUPPORT. The end of memory initialisation (R109, R150): READY and STANDBY, FAULT, or a STANDBY that settles at once under
PWR_WARN (R155, R160). Settles O28. -/

-- One theorem at a time, as in the tests above: fewer threads than the memory limit allows.
set_option Elab.async false

namespace Sys2Proof.Machine

/-! ### SETTLE with nothing to settle (R160) -/

theorem signalAll_of_noRings {s : State} (h : ∀ r, s.ring r = Ring.none) : signalAll s = s :=
  List.foldl_fixed' (fun r => if_neg fun hr => RingState.noConfusion ((congrArg Ring.state (h r)).symm.trans hr.1)) _

theorem leftover_of_noChannels {s : State} (h : ∀ c, s.chan c = Channel.none) (ha : s.ctl.adminDone = none) :
    leftover s = 0 := by
  simp [leftover, h, ha, Channel.left, Channel.none]

/-- SETTLE begun where no channel and no ring exists, and none existed when the drain began (R160). -/
def State.settledBlank (s : State) : State :=
  { s with
    ctl := { s.ctl with phase := .settle, deadline := none, expired := false, adminDone := none }
    fetch := tabulate 16 fun c => (s.fetchOf c).orphan
    admin := { Admin.none with base := s.admin.base, size := s.admin.size, tail := s.admin.tail, head := s.admin.head }
    adminFetch := s.adminFetch.orphan
    port := { s.port with entryRequest := true } }

theorem beginSettle_blank {s : State} (hc : ∀ c, s.chan c = Channel.none) (hr : ∀ r, s.ring r = Ring.none)
    (ha : s.ctl.adminDone = none) (hw : ∀ c, (s.ctl.working.channels.get c).existed = false) :
    beginSettle s = s.settledBlank := by
  have hchannels : Vector.replicate 16 Channel.none = s.channels :=
    vector_ext_get fun c => (get_replicate _ c).trans (hc c).symm
  have hrings : Vector.replicate 9 Ring.none = s.rings := vector_ext_get fun r => (get_replicate _ r).trans (hr r).symm
  have hentries : (tabulate 16 fun c => entryAtSettle (s.ctl.working.channels.get c) (s.chan c)) =
      s.ctl.working.channels := vector_ext_get fun c => by simp [entryAtSettle, hw c]
  unfold beginSettle
  rw [signalAll_of_noRings hr]
  simp only [dropRings, dropChannels, leftover_of_noChannels hc ha, hchannels, hrings, hentries]
  rfl

/-- A STANDBY that begins to settle under PWR_WARN, before SETTLE (R155). -/
def State.leavesStandby (s : State) : State :=
  { s with
    ctl := { s.ctl with op := .draining, phase := .settle, adminDone := none, working := workingRecord s .powerWarn }
    scrub := s.scrub.halt }

theorem settleStandby_blank {s : State} (hc : ∀ c, s.chan c = Channel.none) (hr : ∀ r, s.ring r = Ring.none) :
    settleStandby s = s.leavesStandby.settledBlank :=
  beginSettle_blank (s := s.leavesStandby) hc hr rfl fun c => congrArg ChannelEntry.existed (get_replicate _ c)

/-! ### A grant while a refresh is due (R100, R113) -/

theorem settlePort_refresh_owing {s : State} (h : 0 < s.refresh.debt) : (settlePort s).refresh = s.refresh := by
  unfold settlePort
  split
  · cases hc : portChoice s with
    | selfRefreshEntry => exact absurd (portChoice_entry hc).2.2 h.ne'
    | slot | none | refreshEngine | scrubUnit | selfRefreshExit | arrayStart => rfl
  · rfl

theorem settleLink_refresh (s : State) : (settleLink s).refresh = s.refresh :=
  (congrArg State.refresh (besideTags_settleLink s) :)

/-! ### The obligation -/

section
variable {s : State} (hcore : s.power.core = true) (ho : s.ctl.op = .init) (hm : s.memState = .init)
include hcore ho hm

theorem exec_memoryInitialisation_failed : exec (.memoryInitialisation false) s = .next (arrayFailed s) :=
  if_pos ⟨hcore, ho, hm⟩

theorem exec_memoryInitialisation_done :
    exec (.memoryInitialisation true) s =
      .next (conclude (if s.power.pwrWarn then settleStandby (arrayReady s) else arrayReady s)) :=
  if_pos ⟨hcore, ho, hm⟩

end

theorem arrayReady_entryLaw {s : State} (ho : s.ctl.op = .init) (h : s.EntryLaw) : (arrayReady s).EntryLaw := fun e => by
  have hd := h e
  rw [ho] at hd
  cases hd

/-- No passage follows SETTLE. -/
theorem settlePhases_settledBlank {s : State} (ho : s.ctl.op = .draining) :
    settlePhases s.settledBlank = s.settledBlank :=
  settlePhases_off (by simp [State.atWork, State.settledBlank, ho])
    (.inr ⟨DrainPhase.noConfusion, DrainPhase.noConfusion⟩)

/-- Settles O28: the three outcomes; under PWR_WARN the state is settled, with the refresh engine owing its first
refresh, so that no self-refresh entry is granted. -/
theorem memoryInitialisation : Obligations.MemoryInitialisation := by
  intro s hcore ho hm running
  refine ⟨exec_memoryInitialisation_failed hcore ho hm, fun hw hlaw => ?_, fun hw hc hr => ?_⟩
  · refine concludes_of_next (x := arrayReady s) ?_ (arrayReady_entryLaw ho hlaw)
    rw [exec_memoryInitialisation_done hcore ho hm, hw]
    rfl
  · have hblank : settleStandby (arrayReady s) = (arrayReady s).leavesStandby.settledBlank := settleStandby_blank hc hr
    have hx := exec_memoryInitialisation_done hcore ho hm
    rw [if_pos hw, hblank] at hx
    have hphases := settlePhases_settledBlank (s := (arrayReady s).leavesStandby) rfl
    refine ⟨_, hx, ?_, ?_⟩
    · have hrunning : (settleLink (arrayReady s).leavesStandby.settledBlank).refresh = running := settleLink_refresh _
      rw [conclude, hphases, settlePort_refresh_owing (by rw [hrunning]; exact Nat.one_pos), hrunning]
    · have hlaw : (arrayReady s).leavesStandby.settledBlank.EntryLaw := fun _ => rfl
      rw [besideGrants_conclude (hphases.symm ▸ hlaw), hphases]
      rfl

end Sys2Proof.Machine
end

section
/-! SUPPORT. The patrol of the Scrub Unit: a tick (R119), and a line checked, written back and passed (R107, R121, R125).
Settles O54. -/

-- One theorem at a time, as in the tests above: fewer threads than the memory limit allows.
set_option Elab.async false

namespace Sys2Proof.Machine

/-! ### SCRUB_TICK (R119) -/

theorem exec_scrubTick {s : State} {left : Nat} (hcore : s.power.core = true) (ht : s.scrub.timer = some left) :
    exec .scrubTick s = .next (scrubTicked (s.elapse left)) := by
  show execScrubTick s = _
  simp [execScrubTick, hcore, ht]

theorem scrubTicked_deferred {s : State} (h : s.scrub.request = true) :
    scrubTicked s =
      { s with
        scrub := { s.scrub with timer := some (s.scrub.period * Config.tenthsPerMicro) }
        health := { s.health with deferral := raised 65535 1 s.health.deferral } } := by
  simp [scrubTicked, h]

theorem scrubTicked_asks {s : State} (h : s.scrub.request = false) :
    scrubTicked s =
      settlePort
        { s with scrub := { s.scrub with timer := some (s.scrub.period * Config.tenthsPerMicro), request := true } } := by
  simp [scrubTicked, h]

/-! ### SCRUB_LINE (R107, R121) -/

theorem exec_scrubLine {s : State} (hcore : s.power.core = true) (hh : s.port.holder = .scrubUnit)
    (hin : s.scrub.pointer + 64 ≤ s.capacity.bytes) (fs : List Finding) :
    exec (.scrubLine fs) s = .next (scrubLineEnd s fs) := by
  show execScrubLine fs s = _
  simp [execScrubLine, hcore, hh, hin]

/-- A line is written back where a word was corrected and none was uncorrectable (R107). -/
theorem scrubWrites_eq (ws : List (Nat × Finding)) :
    scrubWrites ws =
      ((ws.any fun w => w.2.condition == .corrected) && ws.all fun w => w.2.condition != .uncorrectable) := by
  have hbad : (firstBad ws).isNone = ws.all fun w => w.2.condition != .uncorrectable := by
    rw [Bool.eq_iff_iff]
    simp [firstBad]
  have hcorrected : decide (0 < countWords ws .corrected) = ws.any fun w => w.2.condition == .corrected := by
    rw [Bool.eq_iff_iff]
    simp only [countWords, decide_eq_true_eq, List.length_pos_iff_exists_mem, List.mem_filter, List.any_eq_true]
  rw [scrubWrites, hbad, hcorrected, Bool.and_comm]

/-! ### A report beside the port (R98, R104) -/

theorem raise_releasePort (s : State) (c : Cause) : (releasePort s).raise c = releasePort (s.raise c) := by
  have hhas : (releasePort s).events.has c = s.events.has c := rfl
  cases h : s.events.has c with
  | true => rw [raise_of_set h, raise_of_set (hhas.trans h)]
  | false =>
    rw [raise_of_clear h, raise_of_clear (hhas.trans h)]
    rfl

theorem offerLine_releasePort (s : State) (a : Nat) : offerLine (releasePort s) a = releasePort (offerLine s a) := by
  by_cases hin : a ∈ s.health.lines
  · rw [offerLine_listed hin, offerLine_listed (s := releasePort s) hin]
  by_cases hroom : s.health.lines.length < 8
  · rw [offerLine_joins hin hroom, offerLine_joins (s := releasePort s) hin hroom]
    exact raise_releasePort { s with health := s.health.joined a } _
  · rw [offerLine_overflows hin (not_lt.mp hroom), offerLine_overflows (s := releasePort s) hin (not_lt.mp hroom)]
    rfl

theorem reportFindings_releasePort (s : State) (ws : List (Nat × Finding)) :
    reportFindings (releasePort s) ws = releasePort (reportFindings s ws) :=
  List.foldl_hom (init := s.counted ws) releasePort offerLine_releasePort

/-! ### The line passed -/

/-- The state after the line is passed, before its words are reported (R107, R121, R125): `m` is memory then. -/
def State.linePassed (s : State) (m : List Host.Cell) (writes : Bool) : State :=
  { s with
    scrub := s.scrub.served s.capacity.bytes, mem := m
    health :=
      if writes = true then { s.health with lines := s.health.lines.filter fun l => l != s.scrub.pointer } else s.health }

theorem removeLines_one (s : State) (a : Nat) :
    removeLines s [a] = { s with health := { s.health with lines := s.health.lines.filter fun l => l != a } } := by
  have hfilter : (s.health.lines.filter fun l => !([a].contains l)) = s.health.lines.filter fun l => l != a :=
    List.filter_congr fun l _ => by
      rw [Bool.eq_iff_iff]
      simp
  rw [removeLines, hfilter]

theorem scrubLineEnd_eq (s : State) (fs : List Finding) :
    let ws := pairFindings (wordAddresses s.scrub.pointer 64) (fs.take 8)
    scrubLineEnd s fs =
      settlePort
        (releasePort
          (reportFindings
            (s.linePassed
              (if scrubWrites ws then Memory.writeBytes s.mem s.scrub.pointer (ws.flatMap (wordBytes s.mem)) else s.mem)
              (scrubWrites ws)) ws)) := by
  intro ws
  show settlePort (reportFindings (if scrubWrites ws = true then removeLines _ [s.scrub.pointer] else _) ws) = _
  rw [removeLines_one, ← reportFindings_releasePort]
  cases scrubWrites ws <;> rfl

/-- Settles O54: the two cases of a tick, and a line by what it writes and what is reported of it. -/
theorem scrubPatrol : Obligations.ScrubPatrol := by
  intro s findings hcore hlaw hmem a words bytes writes u
  refine ⟨fun left hleft => ⟨fun hr => ?_, fun hr => ?_⟩, fun hh hin => ?_⟩
  · rw [exec_scrubTick hcore hleft, scrubTicked_deferred (s := s.elapse left) hr]
    rfl
  · refine ⟨_, exec_scrubTick hcore hleft, ?_⟩
    rw [scrubTicked_asks (s := s.elapse left) hr]
    exact besideGrants_settlePort hlaw
  · have hwords : pairFindings (wordAddresses a 64) (findings.take 8) = words := pairFindings_eq _ _
    have hwrites : scrubWrites words = writes := scrubWrites_eq words
    have hbytes : words.flatMap (wordBytes s.mem) = bytes := congrArg (List.flatMap · words) (wordBytes_eq s.mem)
    have hafter := scrubLineEnd_mem s findings
    have hend := scrubLineEnd_eq s findings
    rw [hwords] at hafter hend
    simp only [hwrites, hbytes] at hafter hend
    refine ⟨_, exec_scrubLine hcore hh hin findings, fun b => ?_, ?_⟩
    · rw [hafter]
      cases writes with
      | false => simp
      | true => simpa using read_writeBytes hmem a b bytes
    · refine (congrArg State.besideGrants hend).trans ?_
      rw [hafter]
      refine besideGrants_settlePort ?_
      exact reportFindings_entryLaw (s := s.linePassed _ writes) hlaw words

end Sys2Proof.Machine
end

section
/-! SUPPORT. SELF_REFRESH_ENTRY and SELF_REFRESH_EXIT (R110, R111, R160, R161, R163), and the trigger that an exit takes
(R155). Settles O55. -/

-- One theorem at a time, as in the tests above: fewer threads than the memory limit allows.
set_option Elab.async false

namespace Sys2Proof.Machine

/-! ### A drain begun and concluded, from what its start leaves (R155, R156) -/

/-- What the start of a drain leaves of `s`, as far as `DrainBegun` speaks of it. -/
structure State.StartedFrom (s : State) (reason : DrainReason) (d : State) : Prop where
  op      : d.ctl.op = .draining
  goesOn  : (s.drainSet reason).ctl.DrainGoesOn d.ctl
  record  : d.ctl.record = s.ctl.record
  monitor : d.monitor = s.monitor.disarmed
  scrub   : d.scrub = s.scrub.halt
  slots   : ∀ k, (d.slot k).Stopped
  mem     : d.mem = s.mem

theorem startDrain_startedFrom (s : State) (reason : DrainReason) : s.StartedFrom reason (startDrain s reason) where
  op := (startDrain_frame s reason).1
  goesOn := drainGoesOn_stopAllSlots (s.drainSet reason) .terminated
  record := (falls_startDrain s reason).record
  monitor := (startDrain_besides s reason).1
  scrub := (startDrain_besides s reason).2
  slots := stopAllSlots_stopped (s.drainSet reason)
  mem := (falls_startDrain s reason).mem

/-- The count of free choices is the model's own: the start of a drain is one whatever the count. -/
theorem State.StartedFrom.counted {s d : State} {reason : DrainReason} (h : s.StartedFrom reason d) (n : Nat) :
    s.StartedFrom reason { d with freeCount := n } :=
  ⟨h.op, h.goesOn, h.record, h.monitor, h.scrub, h.slots, h.mem⟩

theorem Slot.Stopped.not_run {x : Slot} (h : x.Stopped) : x.state ≠ .run := by
  obtain h | ⟨h, -⟩ := h <;> rw [h] <;> exact SlotState.noConfusion

/-- With every slot stopped, the end of the happening withdraws requests and grants no tag. -/
theorem State.StartedFrom.withdrawn {s d : State} {reason : DrainReason} (h : s.StartedFrom reason d) :
    settleLink (settlePhases d) = refreshRequests (settlePhases d) := by
  have hwork : d.atWork = false := by simp [State.atWork, h.op]
  obtain ⟨hslots, hop, -⟩ := settlePhases_frame hwork
  refine settleLink_withdrawn (.inr ⟨?_, fun k => ?_⟩)
  · rw [hop, h.op]
    exact OpState.noConfusion
  · rw [State.slot, hslots]
    exact (h.slots k).not_run

theorem State.StartedFrom.drainBegun {s d : State} {reason : DrainReason} (h : s.StartedFrom reason d) :
    DrainBegun s (conclude d) reason s.time.micros := by
  have hwork : d.atWork = false := by simp [State.atWork, h.op]
  have hc := conclude_concluded d
  have hop : (settlePhases d).ctl.op = .draining := (settlePhases_frame hwork).2.1.trans h.op
  have hfalls := falls_settlePhases hwork
  obtain ⟨hrec, -, hdeadline, hretained⟩ := h.goesOn.trans (drainGoesOn_settlePhases hwork)
  rw [← hc.ctl] at hrec hdeadline hretained
  obtain ⟨hmon, hscrub⟩ := conclude_besides (s := d) fun _ => h.op
  obtain ⟨hf, ha⟩ := refreshRequests_unasked (s := settlePhases d) (by rw [hop]; exact OpState.noConfusion)
  rw [← h.withdrawn] at hf ha
  have hentry : ∀ c, (s.drainSet reason).ctl.working.channels.get c = entryAtStop (s.chan c) :=
    fun c => tabulate_get _ c
  refine ⟨?_, hrec.reason, hrec.timestamp, fun c => ⟨?_, fun hx => ?_⟩, hdeadline, ?_, ?_, ?_, ?_, fun k => ?_,
    fun c => ?_, ?_, ?_, ?_, hretained⟩
  · rw [hc.ctl, hop]
  · rw [hrec.existed, hentry, (entryAtStop_start _).1]
  · rw [hrec.head, hentry, (entryAtStop_start _).2 hx]
  · rw [hscrub, h.scrub]
    rfl
  · rw [hscrub, h.scrub]
    rfl
  · rw [hmon, h.monitor]
    exact (Monitor.disarmed_state _).1
  · rw [hmon, h.monitor]
    exact (Monitor.disarmed_state _).2
  · refine settlePort_stopped ?_
    rw [h.withdrawn, refreshRequests_slot, State.slot, (settlePhases_frame hwork).1]
    exact h.slots k
  · rw [State.fetchOf, hc.fetch]
    exact hf c
  · rw [hc.admin]
    exact ha
  · rw [hc.mem, hfalls.mem, h.mem]
  · rw [hc.ctl, hfalls.record, h.record]

/-! ### The trigger taken at the end of an exit (R155, R163, R174) -/

/-- One of the triggers that stand starts a drain. -/
theorem takeTriggers_started {l : List DrainReason} (h : l ≠ []) (s : State) :
    ∃ r ∈ l, s.StartedFrom r (takeTriggers s l) :=
  match l, h with
  | [r], _ => ⟨r, List.mem_singleton_self r, startDrain_startedFrom s r⟩
  | r :: q :: rest, _ => by
    have hlt := Nat.mod_lt (Config.firstTrigger s.freeCount) (List.length_pos_of_ne_nil (List.cons_ne_nil r (q :: rest)))
    have hget := List.getD_eq_getElem (r :: q :: rest) r hlt
    exact ⟨_, hget ▸ List.getElem_mem hlt, (startDrain_startedFrom s _).counted _⟩

/-- The triggers that stand as an exit completes. -/
theorem mem_exitTriggers {s : State} {r : DrainReason} :
    r ∈ exitTriggers s ↔
      (r = .powerWarn ∧ s.power.pwrWarn = true) ∨ (r = .linkDown ∧ s.link.up = false) ∨
        (r = .linkReset ∧ s.ctl.resetInExit = true) := by
  simp [exitTriggers, and_comm]

/-! ### The obligation -/

section
variable {s : State} (hcore : s.power.core = true)
include hcore

theorem exec_selfRefreshEntry (hh : s.port.holder = .selfRefreshEntry) :
    exec .selfRefreshEntry s = .next (entryComplete s) := congrArg Host.Outcome.next (if_pos ⟨hcore, hh⟩)

theorem exec_selfRefreshExit (hh : s.port.holder = .selfRefreshExit) :
    exec .selfRefreshExit s = .next (conclude (takeTriggers (exitComplete s) (exitTriggers s))) :=
  congrArg Host.Outcome.next (if_pos ⟨hcore, hh⟩)

end

/-- Settles O55: an exit takes none of its triggers where none stands, and otherwise one of them, which starts a drain by
`takeTriggers_started`. -/
theorem selfRefreshSteps : Obligations.SelfRefreshSteps := by
  intro s hcore
  refine ⟨fun hh => exec_selfRefreshEntry hcore hh, fun hh => ⟨fun hw hu hr he => ?_, fun hstands => ?_⟩⟩
  · have hx := exec_selfRefreshExit hcore hh
    have hnone : exitTriggers s = [] := by simp [exitTriggers, hw, hu, hr]
    rw [hnone] at hx
    exact concludes_of_next (x := exitComplete s) hx fun e => absurd e (by simp [exitComplete, setUpAdminRing, releasePort, he])
  · have hsome : exitTriggers s ≠ [] := by
      obtain h | h | h := hstands
      · exact List.ne_nil_of_mem (mem_exitTriggers.mpr (.inl ⟨rfl, h⟩))
      · exact List.ne_nil_of_mem (mem_exitTriggers.mpr (.inr (.inl ⟨rfl, h⟩)))
      · exact List.ne_nil_of_mem (mem_exitTriggers.mpr (.inr (.inr ⟨rfl, h⟩)))
    obtain ⟨r, hr, hstarted⟩ := takeTriggers_started hsome (exitComplete s)
    have hbegun := hstarted.drainBegun
    refine ⟨_, exec_selfRefreshExit hcore hh, ?_⟩
    obtain ⟨rfl, h⟩ | ⟨rfl, h⟩ | ⟨rfl, h⟩ := mem_exitTriggers.mp hr
    · exact .inl ⟨h, hbegun⟩
    · exact .inr (.inl ⟨h, hbegun⟩)
    · exact .inr (.inr ⟨h, hbegun⟩)

end Sys2Proof.Machine
end

section
/-! SUPPORT. The Port Arbiter (R99 to R101, R110, R113): the order of its grants, when it has none to make, and which
changes of the state make no grant possible. -/

-- One theorem at a time, as in the tests above: fewer threads than the memory limit allows.
set_option Elab.async false

namespace Sys2Proof.Machine

/-! ### The order of grants (R100, R101) -/

theorem slotRequests_iff {s : State} {cls : ChannelClass} {k : Fin 4} :
    slotRequests s cls k = true ↔ (s.slot k).port = .waiting ∧ (s.slot k).cls = cls := by
  simp [slotRequests]

theorem slotRequests_none {s : State} {cls : ChannelClass}
    (h : ∀ j, ¬((s.slot j).port = .waiting ∧ (s.slot j).cls = cls)) (p : Fin 4) :
    searchAfter p (slotRequests s cls) = none :=
  searchAfter_eq_none p fun j => Bool.eq_false_of_not_eq_true fun e => h j (slotRequests_iff.mp e)

/-- The slot of a class that comes first after a pointer (R101). -/
theorem slotRequests_first {s : State} {cls : ChannelClass} {p k : Fin 4}
    (hk : (s.slot k).port = .waiting ∧ (s.slot k).cls = cls)
    (hleast : ∀ j, (s.slot j).port = .waiting ∧ (s.slot j).cls = cls → stepsAfter p k ≤ stepsAfter p j) :
    searchAfter p (slotRequests s cls) = some k :=
  searchAfter_of_least (slotRequests_iff.mpr hk) fun j hj => hleast j (slotRequests_iff.mp hj)

theorem portChoice_notReady {s : State} (h : s.memState ≠ .ready) : portChoice s = .none := if_pos h

section
variable {s : State} (hm : s.memState = .ready)
include hm

theorem portChoice_forced (h : s.refresh.limit < s.refresh.debt) : portChoice s = .refreshEngine := by
  simp [portChoice, hm, RefreshEngine.forced, h]

variable (hd : s.refresh.debt ≤ s.refresh.limit)
include hd

theorem portChoice_urgent {k : Fin 4} (h : searchAfter s.port.urgentPointer (slotRequests s .urgent) = some k) :
    portChoice s = .slot k := by
  simp [portChoice, hm, RefreshEngine.forced, hd, h]

variable (hu : searchAfter s.port.urgentPointer (slotRequests s .urgent) = none)
include hu

theorem portChoice_bulk {k : Fin 4} (h : searchAfter s.port.bulkPointer (slotRequests s .bulk) = some k) :
    portChoice s = .slot k := by
  simp [portChoice, hm, RefreshEngine.forced, hd, hu, h]

variable (hb : searchAfter s.port.bulkPointer (slotRequests s .bulk) = none)
include hb

/-- With no slot asking: a due refresh, self-refresh entry, a scrub line, in this order. -/
theorem portChoice_noSlot :
    portChoice s =
      if 0 < s.refresh.debt then .refreshEngine
      else if s.port.entryRequest = true ∧ s.slotsIdle = true then .selfRefreshEntry
      else if s.scrub.request = true ∧ s.scrubRuns = true then .scrubUnit
      else .none := by
  simp only [portChoice, hm, ne_eq, not_true_eq_false, if_false, RefreshEngine.forced, not_lt.mpr hd, decide_false,
    Bool.false_eq_true, hu, hb, Bool.and_eq_true]

end

theorem scrubRuns_iff {s : State} (hm : s.memState = .ready) :
    s.scrubRuns = true ↔ s.ctl.op = .standby ∨ s.ctl.op = .active ∨ s.ctl.op = .quiescing := by
  simp [State.scrubRuns, hm, or_assoc]

/-! ### A port with no grant to make (R100) -/

/-- Settling the port changes nothing exactly where the port is held or nobody asks for it. -/
theorem settlePort_same_iff {s : State} : settlePort s = s ↔ s.port.holder ≠ .none ∨ portChoice s = .none := by
  constructor
  · intro h
    exact h ▸ settlePort_settled s
  · rintro (h | h)
    · exact if_neg h
    · unfold settlePort
      split
      · rw [h]
        rfl
      · rfl

/-- What the Port Arbiter reads of the state asks for nothing that it did not ask for in `s`. -/
structure State.AsksNoMore (s t : State) : Prop where
  holder   : t.port.holder = s.port.holder
  entry    : t.port.entryRequest = s.port.entryRequest
  memState : t.memState = s.memState
  op       : t.ctl.op = s.ctl.op
  debt     : t.refresh.debt = s.refresh.debt
  scrub    : t.scrub.request = true → s.scrub.request = true
  slots    : ∀ k, (t.slot k).port = (s.slot k).port ∧ (t.slot k).state = (s.slot k).state

/-- No request stands (R100). -/
theorem portChoice_eq_none {s : State} :
    portChoice s = .none ↔
      (s.memState = .ready →
        (∀ k, (s.slot k).port ≠ .waiting) ∧ s.refresh.debt = 0 ∧
          ¬(s.port.entryRequest = true ∧ ∀ k, (s.slot k).state = .idle) ∧
          ¬(s.scrub.request = true ∧ (s.ctl.op = .standby ∨ s.ctl.op = .active ∨ s.ctl.op = .quiescing))) := by
  by_cases hm : s.memState = .ready
  · simp only [hm, true_imp_iff, ← slotsIdle_iff, ← scrubRuns_iff hm]
    by_cases hf : s.refresh.limit < s.refresh.debt
    · rw [portChoice_forced hm hf]
      exact iff_of_false PortHolder.noConfusion fun h => by omega
    have hd := not_lt.mp hf
    cases hu : searchAfter s.port.urgentPointer (slotRequests s .urgent) with
    | some k =>
      rw [portChoice_urgent hm hd hu]
      exact iff_of_false PortHolder.noConfusion fun h => h.1 k (slotRequests_iff.mp (searchAfter_some hu)).1
    | none =>
      cases hb : searchAfter s.port.bulkPointer (slotRequests s .bulk) with
      | some k =>
        rw [portChoice_bulk hm hd hu hb]
        exact iff_of_false PortHolder.noConfusion fun h => h.1 k (slotRequests_iff.mp (searchAfter_some hb)).1
      | none =>
        have hslots : ∀ k, (s.slot k).port ≠ .waiting := fun k hk => by
          cases hcls : (s.slot k).cls with
          | urgent =>
            have := slotRequests_iff.mpr ⟨hk, hcls⟩
            rw [searchAfter_none_iff.mp hu k] at this
            cases this
          | bulk =>
            have := slotRequests_iff.mpr ⟨hk, hcls⟩
            rw [searchAfter_none_iff.mp hb k] at this
            cases this
        rw [portChoice_noSlot hm hd hu hb]
        split_ifs <;> simp [*] <;> omega
  · simp [portChoice_notReady hm, hm]

namespace State.AsksNoMore

theorem refl (s : State) : s.AsksNoMore s := ⟨rfl, rfl, rfl, rfl, rfl, id, fun _ => ⟨rfl, rfl⟩⟩

theorem trans {s t u : State} (h : s.AsksNoMore t) (h' : t.AsksNoMore u) : s.AsksNoMore u :=
  ⟨h'.holder.trans h.holder, h'.entry.trans h.entry, h'.memState.trans h.memState, h'.op.trans h.op,
    h'.debt.trans h.debt, fun e => h.scrub (h'.scrub e),
    fun k => ⟨(h'.slots k).1.trans (h.slots k).1, (h'.slots k).2.trans (h.slots k).2⟩⟩

/-- Nothing that the Port Arbiter reads has changed; for an update of other fields each equation holds by computation. -/
theorem untouched {s t : State} (hp : t.port = s.port := by rfl) (hm : t.memState = s.memState := by rfl)
    (ho : t.ctl.op = s.ctl.op := by rfl) (hd : t.refresh.debt = s.refresh.debt := by rfl)
    (hr : t.scrub.request = s.scrub.request := by rfl) (hs : t.slots = s.slots := by rfl) : s.AsksNoMore t where
  holder := by rw [hp]
  entry := by rw [hp]
  memState := hm
  op := ho
  debt := hd
  scrub e := hr.symm.trans e
  slots k := by simp [State.slot, hs]

/-- Where no grant could be made, none can be. -/
theorem settled {s t : State} (h : s.AsksNoMore t) (hs : settlePort s = s) : settlePort t = t := by
  rw [settlePort_same_iff] at hs ⊢
  refine hs.imp (fun e => by rwa [h.holder]) fun e => ?_
  rw [portChoice_eq_none] at e ⊢
  intro hm
  obtain ⟨hwait, hdebt, hentry, hscrub⟩ := e (h.memState ▸ hm)
  refine ⟨fun k => ?_, h.debt.trans hdebt, fun ⟨hr, hi⟩ => hentry ⟨h.entry ▸ hr, fun k => ?_⟩, fun ⟨hr, ho⟩ =>
    hscrub ⟨h.scrub hr, h.op ▸ ho⟩⟩
  · rw [(h.slots k).1]
    exact hwait k
  · rw [← (h.slots k).2]
    exact hi k

end State.AsksNoMore

/-! ### Operations that ask the port for nothing more -/

theorem asksNoMore_elapse (s : State) (n : Nat) : s.AsksNoMore (s.elapse n) := .untouched

theorem asksNoMore_handOut (s : State) (o : Outbound) : s.AsksNoMore (s.handOut o) := by
  obtain ⟨q, h⟩ := handOut_eq s o
  rw [h]
  exact .untouched

theorem asksNoMore_raise (s : State) (c : Cause) : s.AsksNoMore (s.raise c) := by
  obtain ⟨e, q, h⟩ := raise_eq s c
  rw [h]
  exact .untouched

theorem asksNoMore_raiseAlert (s : State) (d : AlertDetail) : s.AsksNoMore (s.raiseAlert d) :=
  (asksNoMore_raise s _).trans .untouched

theorem asksNoMore_sendVector (s : State) (r : Fin 9) : s.AsksNoMore (sendVector s r) := by
  obtain ⟨q, rs, h⟩ := sendVector_eq s r
  rw [h]
  exact .untouched

theorem asksNoMore_signalRest (s : State) (r : Fin 9) : s.AsksNoMore (signalRest s r) := by
  obtain ⟨q, rs, h⟩ := signalRest_eq s r
  rw [h]
  exact .untouched

theorem asksNoMore_handOverAdmin (s : State) (st : Status) (v : Word32) : s.AsksNoMore (s.handOverAdmin st v) := by
  obtain ⟨a, h⟩ := handOverAdmin_eq s st v
  rw [h]
  exact .untouched

/-- Requests and grants of tags change of a slot its reads and its next piece alone (R57, R169). -/
theorem asksNoMore_settleLink (s : State) : s.AsksNoMore (settleLink s) := by
  have h := besideTags_settleLink s
  have hslot : ∀ k, { (settleLink s).slot k with reads := 0, nextPiece := 0 } = { s.slot k with reads := 0, nextPiece := 0 } :=
    fun k => by
      have hk := congrArg (fun t : State => t.slots.get k) h
      simpa only [State.besideTags, tabulate_get] using hk
  exact
    { holder := (congrArg (fun t : State => t.port.holder) h :)
      entry := (congrArg (fun t : State => t.port.entryRequest) h :)
      memState := (congrArg State.memState h :)
      op := (congrArg (fun t : State => t.ctl.op) h :)
      debt := (congrArg (fun t : State => t.refresh.debt) h :)
      scrub := fun e => (congrArg (fun t : State => t.scrub.request) h.symm :).trans e
      slots := fun k => ⟨(congrArg Slot.port (hslot k) :), (congrArg Slot.state (hslot k) :)⟩ }

end Sys2Proof.Machine
end

section
/-! O23: the grants of the Port Arbiter (R99 to R101, R110, R113), and every command leaves no request at a free port. -/

-- One theorem at a time, as in the tests above: fewer threads than the memory limit allows.
set_option Elab.async false

namespace Sys2Proof.Machine

/-- Each next state that the outcome can be has no grant of the port to make, if `s` has none. -/
def State.PortSettledIn (s : State) (o : Out) : Prop := ∀ t, o = .next t → settlePort s = s → settlePort t = t

section
variable {s t : State}

theorem portSettledIn_of_settled (h : settlePort t = t) : s.PortSettledIn (.next t) := fun _ e _ => by
  cases e
  exact h

theorem portSettledIn_asks (h : s.AsksNoMore t) : s.PortSettledIn (.next t) := fun _ e hs => by
  cases e
  exact h.settled hs

theorem portSettledIn_same : s.PortSettledIn (.next s) := portSettledIn_asks (.refl s)

theorem portSettledIn_fault (f : Fault) : s.PortSettledIn (.fault f) := fun _ e => nomatch e

theorem portSettledIn_concluded : s.PortSettledIn (.next (conclude t)) := portSettledIn_of_settled (conclude_settled t)

theorem portSettledIn_granted : s.PortSettledIn (.next (settlePort t)) := portSettledIn_of_settled (settlePort_idem t)

theorem portSettledIn_linked (h : s.AsksNoMore t) : s.PortSettledIn (.next (settleLink t)) :=
  portSettledIn_asks (h.trans (asksNoMore_settleLink t))

theorem portSettledIn_raised (c : Cause) : s.PortSettledIn (.next (s.raise c)) :=
  portSettledIn_asks (asksNoMore_raise s c)

/-- A memory that is not READY admits no grant (R108). -/
theorem portSettledIn_notReady (h : t.memState ≠ .ready) : s.PortSettledIn (.next t) :=
  portSettledIn_of_settled (settlePort_same_iff.mpr (.inr (portChoice_notReady h)))

/-- A port that is held is granted to nobody (R100). -/
theorem portSettledIn_held (h : t.port.holder ≠ .none) : s.PortSettledIn (.next t) :=
  portSettledIn_of_settled (settlePort_same_iff.mpr (.inl h))

theorem portSettledIn_ite {p : Prop} [Decidable p] (h : p → s.PortSettledIn (.next t)) :
    s.PortSettledIn (.next (if p then t else s)) := by
  split
  · exact h ‹_›
  · exact portSettledIn_same

end

/-! ### Commands of the admin ring (R134) -/

theorem asksNoMore_done {s t : State} (h : s.AsksNoMore t) (st : Status) (v : Word32) :
    s.AsksNoMore (Taken.done t st v).state := h.trans (asksNoMore_handOverAdmin t st v)

theorem asksNoMore_refused (s : State) (st : Status) : s.AsksNoMore (Taken.refused s st).state :=
  asksNoMore_handOverAdmin s st 0

/-- A command of the admin ring that asks the port for nothing more, and ends with the link settled. -/
theorem portSettledIn_taken {codes : Nat → Bool} {body : State → Record → Taken}
    (hb : ∀ (s : State) (r : Record), s.AsksNoMore (body s r).state) (s : State) :
    s.PortSettledIn (takeCommand codes body settleLink s) := by
  unfold takeCommand
  split
  · exact portSettledIn_same
  · rename_i f rest _
    split
    · have hbegin : s.AsksNoMore (beginCommand s f rest) := .untouched
      exact portSettledIn_linked (hbegin.trans (hb _ _))
    · exact portSettledIn_same

theorem portSettledIn_takenConcluded {codes : Nat → Bool} {body : State → Record → Taken} (s : State) :
    s.PortSettledIn (takeCommand codes body conclude s) := by
  unfold takeCommand
  split
  · exact portSettledIn_same
  · split
    · exact portSettledIn_concluded
    · exact portSettledIn_same

theorem asksNoMore_withPartition {s : State} {r : Record} {body : Fin 16 → Taken}
    (h : ∀ i, s.AsksNoMore (body i).state) : s.AsksNoMore (withPartition s r body).state := by
  unfold withPartition
  split
  · exact asksNoMore_refused s _
  · split
    · exact asksNoMore_refused s _
    · exact h _

theorem asksNoMore_withChannel {s : State} {r : Record} {body : Fin 16 → Taken}
    (h : ∀ c, s.AsksNoMore (body c).state) : s.AsksNoMore (withChannel s r body).state := by
  unfold withChannel
  split
  · exact asksNoMore_refused s _
  · split
    · exact asksNoMore_refused s _
    · exact h _

theorem asksNoMore_definePart (s : State) (r : Record) (i : Fin 16) : s.AsksNoMore (definePart s r i).state := by
  obtain ⟨st, h⟩ | ⟨p, -, h⟩ := definePart_cases s r i <;> rw [h]
  · exact asksNoMore_refused s st
  · exact asksNoMore_done .untouched _ _

theorem asksNoMore_freezePart (s : State) (i : Fin 16) : s.AsksNoMore (freezePart s i).state := by
  unfold freezePart
  split_ifs
  · exact asksNoMore_refused s _
  · exact asksNoMore_refused s _
  · exact asksNoMore_refused s _
  · exact asksNoMore_done .untouched _ _

theorem asksNoMore_releasePart (s : State) (i : Fin 16) : s.AsksNoMore (releasePart s i).state := by
  unfold releasePart
  split_ifs
  · exact asksNoMore_refused s _
  · exact asksNoMore_done .untouched _ _
  · exact .untouched

theorem asksNoMore_clearTornPart (s : State) (i : Fin 16) : s.AsksNoMore (clearTornPart s i).state := by
  unfold clearTornPart
  split_ifs
  · exact asksNoMore_refused s _
  · exact asksNoMore_done .untouched _ _

theorem asksNoMore_postRecord (s : State) (r : Record) (bytes : List Byte) : s.AsksNoMore (postRecord s r bytes) :=
  asksNoMore_handOut s _

theorem asksNoMore_getPartitions (s : State) (r : Record) : s.AsksNoMore (getPartitions s r).state := by
  unfold getPartitions
  split_ifs
  · exact asksNoMore_done (asksNoMore_postRecord s r _) _ _
  · exact asksNoMore_refused s _

theorem asksNoMore_getHealth (s : State) (r : Record) : s.AsksNoMore (getHealth s r).state := by
  unfold getHealth
  split_ifs
  · exact asksNoMore_done (asksNoMore_postRecord s r _) _ _
  · exact asksNoMore_refused s _

theorem asksNoMore_getRetentionRecord (s : State) (r : Record) : s.AsksNoMore (getRetentionRecord s r).state := by
  unfold getRetentionRecord
  split_ifs
  · exact asksNoMore_refused s _
  · exact asksNoMore_refused s _
  · exact asksNoMore_done (asksNoMore_postRecord s r _) _ _

theorem asksNoMore_createChannel (s : State) (r : Record) : s.AsksNoMore (createChannel s r).state := by
  have hrefused : ∀ st, s.AsksNoMore (Taken.refused s st).state := asksNoMore_refused s
  unfold createChannel
  split
  · exact hrefused _
  split
  · exact hrefused _
  split
  · exact hrefused _
  split
  · exact hrefused _
  split
  · exact hrefused _
  split
  · split
    · exact asksNoMore_done .untouched _ _
    · exact hrefused _
  · exact hrefused _

theorem asksNoMore_pauseChan (s : State) (c : Fin 16) : s.AsksNoMore (pauseChan s c).state := by
  unfold pauseChan
  split_ifs
  · exact asksNoMore_refused s _
  · exact asksNoMore_done .untouched _ _

theorem asksNoMore_resumeChan (s : State) (c : Fin 16) : s.AsksNoMore (resumeChan s c).state := by
  unfold resumeChan
  simp only
  split_ifs
  · exact asksNoMore_done .untouched _ _
  · exact asksNoMore_refused s _

theorem asksNoMore_createCq (s : State) (r : Record) : s.AsksNoMore (createCq s r).state := by
  unfold createCq
  split
  · exact asksNoMore_refused s _
  · split_ifs
    · exact asksNoMore_refused s _
    · exact asksNoMore_done .untouched _ _
    · exact asksNoMore_refused s _

theorem asksNoMore_deleteCq (s : State) (r : Record) : s.AsksNoMore (deleteCq s r).state := by
  unfold deleteCq
  split
  · exact asksNoMore_refused s _
  · split_ifs
    · exact asksNoMore_refused s _
    · exact asksNoMore_refused s _
    · exact asksNoMore_done ((asksNoMore_signalRest s _).trans .untouched) _ _

/-- A new limit leaves the debt (R116). -/
theorem withLimit_debt (e : RefreshEngine) (limit : Nat) : (e.withLimit limit).debt = e.debt := by
  unfold RefreshEngine.withLimit
  split <;> rfl

theorem asksNoMore_setRefresh (s : State) (r : Record) : s.AsksNoMore (setRefresh s r).state := by
  unfold setRefresh
  simp only
  split
  · exact asksNoMore_refused s _
  · split
    · exact asksNoMore_refused s _
    · exact asksNoMore_done (.untouched (hd := withLimit_debt _ _)) _ _

/-- A new period makes no request (R122). -/
theorem withPeriod_request {u : ScrubUnit} {runs : Bool} {period : Nat}
    (h : (u.withPeriod runs period).request = true) : u.request = true := by
  unfold ScrubUnit.withPeriod at h
  split at h
  · cases h
  · split at h
    · cases runs with
      | false => exact h
      | true => cases h
    · exact h

theorem asksNoMore_setScrub (s : State) (r : Record) : s.AsksNoMore (setScrub s r).state := by
  unfold setScrub
  simp only
  split
  · exact asksNoMore_refused s _
  · have h : s.AsksNoMore { s with scrub := s.scrub.withPeriod s.scrubRuns (wordAt r 8).toNat } :=
      ⟨rfl, rfl, rfl, rfl, rfl, withPeriod_request, fun _ => ⟨rfl, rfl⟩⟩
    exact asksNoMore_done h _ _

theorem asksNoMore_setMonitor (s : State) (r : Record) : s.AsksNoMore (setMonitor s r).state := by
  unfold setMonitor
  simp only
  split_ifs
  · exact asksNoMore_refused s _
  · exact asksNoMore_refused s _
  · exact asksNoMore_refused s _
  · exact asksNoMore_done .untouched _ _
  · exact asksNoMore_done .untouched _ _

theorem asksNoMore_setLinkTimeout (s : State) (r : Record) : s.AsksNoMore (setLinkTimeout s r).state := by
  unfold setLinkTimeout
  simp only
  split
  · exact asksNoMore_refused s _
  · exact asksNoMore_done .untouched _ _

theorem asksNoMore_setDrain (s : State) (r : Record) : s.AsksNoMore (setDrain s r).state := by
  unfold setDrain
  simp only
  split
  · exact asksNoMore_refused s _
  · exact asksNoMore_done .untouched _ _

theorem asksNoMore_claimRetained (s : State) (r : Record) : s.AsksNoMore (claimRetained s r).state := by
  unfold claimRetained
  split
  · exact asksNoMore_refused s _
  · exact asksNoMore_done .untouched _ _

theorem asksNoMore_discardRetained (s : State) (r : Record) : s.AsksNoMore (discardRetained s r).state := by
  unfold discardRetained
  split
  · exact asksNoMore_refused s _
  · exact asksNoMore_done .untouched _ _

/-! ### Register writes -/

/-- A self-refresh exit takes the port as it is requested (R111, R163). -/
theorem portSettledIn_enable (s : State) : s.PortSettledIn (execEnable s) := by
  unfold execEnable
  split
  · exact portSettledIn_same
  split
  · split
    · exact portSettledIn_concluded
    · exact portSettledIn_raised _
  · split
    · exact portSettledIn_same
    · split
      · exact portSettledIn_held PortHolder.noConfusion
      · exact portSettledIn_raised _
  all_goals exact portSettledIn_same

theorem portSettledIn_functionReset (s : State) : s.PortSettledIn (execFunctionReset s) := by
  unfold execFunctionReset
  split
  · exact portSettledIn_same
  split
  · exact portSettledIn_concluded
  · exact portSettledIn_ite fun _ => portSettledIn_asks .untouched

theorem portSettledIn_notifySqTail (ring : BitVec 8) (index : BitVec 16) (s : State) :
    s.PortSettledIn (execNotifySqTail ring index s) := by
  unfold execNotifySqTail
  split
  · exact portSettledIn_same
  split
  · unfold notifyAdminTail
    split
    · exact portSettledIn_linked .untouched
    · exact portSettledIn_raised _
  split
  · exact portSettledIn_raised _
  · unfold notifyChannelTail
    split
    · exact portSettledIn_raised _
    · exact portSettledIn_linked .untouched

theorem portSettledIn_notifyCqHead (ring : BitVec 8) (index : BitVec 16) (s : State) :
    s.PortSettledIn (execNotifyCqHead ring index s) := by
  unfold execNotifyCqHead
  split
  · exact portSettledIn_same
  split
  · exact portSettledIn_raised _
  split
  · exact portSettledIn_concluded
  · exact portSettledIn_raised _

theorem asksNoMore_takeBeat (s : State) (token : BitVec 8) : s.AsksNoMore (takeBeat s token) := by
  unfold takeBeat
  simp only
  split
  · exact .untouched
  · exact .untouched
  · split
    · exact .untouched
    · split
      · exact State.AsksNoMore.trans .untouched (asksNoMore_raiseAlert _ _)
      · exact .untouched
  · split <;> exact .untouched

/-! ### Refresh, self-refresh and timers -/

theorem portSettledIn_scrubLine (fs : List Finding) (s : State) : s.PortSettledIn (execScrubLine fs s) := by
  unfold execScrubLine
  split
  · split
    · exact portSettledIn_granted
    · exact portSettledIn_fault _
  · exact portSettledIn_same

/-- Self-refresh entry leaves the array in self-refresh, in which nothing is granted (R108, R110). -/
theorem portSettledIn_selfRefreshEntry (s : State) : s.PortSettledIn (execSelfRefreshEntry s) := by
  refine portSettledIn_ite fun _ => portSettledIn_notReady ?_
  unfold entryComplete
  rw [(asksNoMore_raise _ _).memState]
  exact MemState.noConfusion

theorem portSettledIn_intervalExpiry (s : State) : s.PortSettledIn (execIntervalExpiry s) := by
  unfold execIntervalExpiry
  split
  · exact portSettledIn_same
  split
  · exact portSettledIn_same
  · exact portSettledIn_granted

/-- A tick asks for a line and the port is settled, or finds the request that stood (R119). -/
theorem portSettledIn_scrubTick (s : State) : s.PortSettledIn (execScrubTick s) := by
  unfold execScrubTick
  split
  · exact portSettledIn_same
  split
  · exact portSettledIn_same
  · rename_i left _
    cases hr : s.scrub.request with
    | true =>
      rw [scrubTicked_deferred (s := s.elapse left) hr]
      exact portSettledIn_asks ((asksNoMore_elapse s left).trans .untouched)
    | false =>
      rw [scrubTicked_asks (s := s.elapse left) hr]
      exact portSettledIn_granted

theorem asksNoMore_delayExpired (s : State) (r : Fin 9) : s.AsksNoMore (delayExpired s r) := by
  unfold delayExpired
  split
  · exact asksNoMore_sendVector s r
  · exact .untouched

theorem portSettledIn_delayTimerExpiry (r : Fin 9) (s : State) : s.PortSettledIn (execDelayTimerExpiry r s) := by
  unfold execDelayTimerExpiry
  split
  · exact portSettledIn_same
  split
  · exact portSettledIn_same
  · exact portSettledIn_asks ((asksNoMore_elapse s _).trans (asksNoMore_delayExpired _ r))

theorem portSettledIn_periodTimerExpiry (s : State) : s.PortSettledIn (execPeriodTimerExpiry s) := by
  refine portSettledIn_ite fun _ => portSettledIn_asks ((asksNoMore_elapse s s.monitor.periodLeft).trans ?_)
  unfold periodExpired
  exact State.AsksNoMore.trans .untouched (asksNoMore_raiseAlert _ _)

theorem portSettledIn_drainDeadlineExpiry (s : State) : s.PortSettledIn (execDrainDeadlineExpiry s) := by
  unfold execDrainDeadlineExpiry
  split
  · exact portSettledIn_same
  split
  · exact portSettledIn_same
  · exact portSettledIn_concluded

/-! ### Completions, descriptors and reads -/

theorem portSettledIn_completionWrite (r : Fin 9) (s : State) : s.PortSettledIn (execCompletionWrite r s) := by
  unfold execCompletionWrite
  split
  · exact portSettledIn_same
  split
  · unfold writeAtWork
    split
    · split
      · exact portSettledIn_same
      · exact portSettledIn_concluded
    · split
      · exact portSettledIn_same
      · split
        · exact portSettledIn_same
        · exact portSettledIn_concluded
  split
  · unfold writeInFlush
    split
    · exact portSettledIn_same
    · split
      · split <;> exact portSettledIn_concluded
      · exact portSettledIn_same
  · exact portSettledIn_same

theorem portSettledIn_completionDiscard (src : CompletionSource) (s : State) :
    s.PortSettledIn (execCompletionDiscard src s) := by
  unfold execCompletionDiscard
  split
  · exact portSettledIn_same
  split
  · unfold discardAtWork
    split <;> exact portSettledIn_ite fun _ => portSettledIn_concluded
  split
  · unfold discardInFlush
    split
    · exact portSettledIn_same
    · split
      · split <;> exact portSettledIn_concluded
      · exact portSettledIn_same
  · exact portSettledIn_same

theorem portSettledIn_slotSchedulerChoice (s : State) : s.PortSettledIn (execSlotSchedulerChoice s) := by
  unfold execSlotSchedulerChoice
  split
  · exact portSettledIn_same
  split
  · exact portSettledIn_concluded
  · exact portSettledIn_same

theorem portSettledIn_presentation (k : Fin 4) (s : State) : s.PortSettledIn (execPresentation k s) := by
  unfold execPresentation
  simp only
  split
  · exact portSettledIn_same
  split
  · exact portSettledIn_same
  split <;> exact portSettledIn_concluded

theorem portSettledIn_readBurst (fs : List Finding) (s : State) : s.PortSettledIn (execReadBurst fs s) := by
  unfold execReadBurst
  split
  · exact portSettledIn_same
  split
  · exact portSettledIn_same
  split
  · exact portSettledIn_concluded
  · exact portSettledIn_fault _

theorem portSettledIn_writeBurst (s : State) : s.PortSettledIn (execWriteBurst s) := by
  unfold execWriteBurst
  split
  · exact portSettledIn_same
  split
  · exact portSettledIn_same
  split
  · exact portSettledIn_concluded
  · exact portSettledIn_fault _

theorem portSettledIn_readModifyWrite (f : Finding) (s : State) : s.PortSettledIn (execReadModifyWrite f s) := by
  unfold execReadModifyWrite
  split
  · exact portSettledIn_same
  split
  · exact portSettledIn_same
  split
  · simp only
    split <;> exact portSettledIn_concluded
  · exact portSettledIn_fault _

theorem portSettledIn_hostReadData (g : Fin 16) (bs : List Byte) (s : State) :
    s.PortSettledIn (execHostReadData g bs s) := by
  unfold execHostReadData
  simp only
  split
  · exact portSettledIn_same
  split
  · exact portSettledIn_asks .untouched
  · exact portSettledIn_concluded

theorem portSettledIn_readErrorReturn (g : Fin 16) (s : State) : s.PortSettledIn (execReadErrorReturn g s) := by
  unfold execReadErrorReturn
  split
  · exact portSettledIn_same
  · exact portSettledIn_concluded

theorem portSettledIn_linkReadTimeout (g : Fin 16) (s : State) : s.PortSettledIn (execLinkReadTimeout g s) := by
  unfold execLinkReadTimeout
  split
  · exact portSettledIn_same
  · exact portSettledIn_concluded

theorem portSettledIn_quarantineEnd (g : Fin 16) (s : State) : s.PortSettledIn (execQuarantineEnd g s) := by
  unfold execQuarantineEnd
  split
  · exact portSettledIn_same
  · exact portSettledIn_linked ((asksNoMore_elapse s _).trans .untouched)

/-! ### Power -/

theorem portSettledIn_memoryInitialisation (success : Bool) (s : State) :
    s.PortSettledIn (execMemoryInitialisation success s) := by
  unfold execMemoryInitialisation
  split
  · split
    · exact portSettledIn_concluded
    · exact portSettledIn_notReady MemState.noConfusion
  · exact portSettledIn_same

theorem portSettledIn_pwrWarnAsserted (s : State) : s.PortSettledIn (execPwrWarnAsserted s) := by
  unfold execPwrWarnAsserted
  simp only
  split
  · exact portSettledIn_same
  split
  · exact portSettledIn_asks .untouched
  split
  · exact portSettledIn_concluded
  split
  · exact portSettledIn_concluded
  · exact portSettledIn_asks .untouched

/-! ### Every command -/

theorem exec_portSettledIn (i : Instr) (s : State) : s.PortSettledIn (exec i s) := by
  cases i with
  | powerOn => exact portSettledIn_ite fun _ => portSettledIn_held PortHolder.noConfusion
  | warmStart => exact portSettledIn_ite fun _ => portSettledIn_notReady MemState.noConfusion
  | memoryInitialisation success => exact portSettledIn_memoryInitialisation success s
  | coreLogicPowerDown => exact portSettledIn_ite fun _ => portSettledIn_asks .untouched
  | pwrWarnAsserted => exact portSettledIn_pwrWarnAsserted s
  | pwrWarnDeasserted => exact portSettledIn_asks .untouched
  | mainPowerLoss => exact portSettledIn_ite fun _ => portSettledIn_asks .untouched
  | mainPowerReturn => exact portSettledIn_asks .untouched
  | backupSupplyFailure => exact portSettledIn_ite fun _ => portSettledIn_asks .untouched
  | linkDown => exact portSettledIn_ite fun _ => portSettledIn_concluded
  | linkUp => exact portSettledIn_ite fun _ => portSettledIn_linked .untouched
  | linkReset => exact portSettledIn_ite fun _ => portSettledIn_concluded
  | hostReadData g bs => exact portSettledIn_hostReadData g bs s
  | readErrorReturn g => exact portSettledIn_readErrorReturn g s
  | linkReadTimeout g => exact portSettledIn_linkReadTimeout g s
  | quarantineEnd g => exact portSettledIn_quarantineEnd g s
  | messageEnable e g => exact portSettledIn_ite fun _ => portSettledIn_asks .untouched
  | enable => exact portSettledIn_enable s
  | quiesce => exact portSettledIn_ite fun _ => portSettledIn_concluded
  | functionReset => exact portSettledIn_functionReset s
  | adminRingWrite f p v => exact portSettledIn_ite fun _ => portSettledIn_asks .untouched
  | notifySqTail r n => exact portSettledIn_notifySqTail r n s
  | notifyCqHead r n => exact portSettledIn_notifyCqHead r n s
  | heartbeatWrite v => exact portSettledIn_ite fun _ => portSettledIn_asks (asksNoMore_takeBeat s _)
  | eventsWrite v => exact portSettledIn_ite fun _ => portSettledIn_asks .untouched
  | registerWriteIgnored o w v => exact portSettledIn_same
  | definePartition =>
    exact (portSettledIn_taken (fun s r => asksNoMore_withPartition (asksNoMore_definePart s r)) s :
      s.PortSettledIn (execDefinePartition s))
  | freezePartition =>
    exact (portSettledIn_taken (fun s _ => asksNoMore_withPartition (asksNoMore_freezePart s)) s :
      s.PortSettledIn (execFreezePartition s))
  | releasePartition =>
    exact (portSettledIn_taken (fun s _ => asksNoMore_withPartition (asksNoMore_releasePart s)) s :
      s.PortSettledIn (execReleasePartition s))
  | clearTorn =>
    exact (portSettledIn_taken (fun s _ => asksNoMore_withPartition (asksNoMore_clearTornPart s)) s :
      s.PortSettledIn (execClearTorn s))
  | getPartitions => exact (portSettledIn_taken asksNoMore_getPartitions s : s.PortSettledIn (execGetPartitions s))
  | createChannel => exact (portSettledIn_taken asksNoMore_createChannel s : s.PortSettledIn (execCreateChannel s))
  | deleteChannel => exact (portSettledIn_takenConcluded s : s.PortSettledIn (execDeleteChannel s))
  | pauseChannel =>
    exact (portSettledIn_taken (fun s _ => asksNoMore_withChannel (asksNoMore_pauseChan s)) s :
      s.PortSettledIn (execPauseChannel s))
  | resumeChannel =>
    exact (portSettledIn_taken (fun s _ => asksNoMore_withChannel (asksNoMore_resumeChan s)) s :
      s.PortSettledIn (execResumeChannel s))
  | createCq => exact (portSettledIn_taken asksNoMore_createCq s : s.PortSettledIn (execCreateCq s))
  | deleteCq => exact (portSettledIn_taken asksNoMore_deleteCq s : s.PortSettledIn (execDeleteCq s))
  | setRefresh => exact (portSettledIn_taken asksNoMore_setRefresh s : s.PortSettledIn (execSetRefresh s))
  | setScrub => exact (portSettledIn_taken asksNoMore_setScrub s : s.PortSettledIn (execSetScrub s))
  | getHealth => exact (portSettledIn_taken asksNoMore_getHealth s : s.PortSettledIn (execGetHealth s))
  | clearErrors =>
    exact (portSettledIn_taken (body := clearErrors) (fun _ _ => asksNoMore_done .untouched _ _) s :
      s.PortSettledIn (execClearErrors s))
  | setMonitor => exact (portSettledIn_taken asksNoMore_setMonitor s : s.PortSettledIn (execSetMonitor s))
  | setLinkTimeout =>
    exact (portSettledIn_taken asksNoMore_setLinkTimeout s : s.PortSettledIn (execSetLinkTimeout s))
  | setDrain => exact (portSettledIn_taken asksNoMore_setDrain s : s.PortSettledIn (execSetDrain s))
  | enterRetention => exact (portSettledIn_takenConcluded s : s.PortSettledIn (execEnterRetention s))
  | getRetentionRecord =>
    exact (portSettledIn_taken asksNoMore_getRetentionRecord s : s.PortSettledIn (execGetRetentionRecord s))
  | claimRetained => exact (portSettledIn_taken asksNoMore_claimRetained s : s.PortSettledIn (execClaimRetained s))
  | discardRetained =>
    exact (portSettledIn_taken asksNoMore_discardRetained s : s.PortSettledIn (execDiscardRetained s))
  | unknownCommand =>
    exact (portSettledIn_taken (fun s _ => asksNoMore_refused s _) s : s.PortSettledIn (execUnknownCommand s))
  | slotSchedulerChoice => exact portSettledIn_slotSchedulerChoice s
  | presentation k => exact portSettledIn_presentation k s
  | readBurst fs => exact portSettledIn_readBurst fs s
  | writeBurst => exact portSettledIn_writeBurst s
  | readModifyWrite f => exact portSettledIn_readModifyWrite f s
  | refresh => exact portSettledIn_ite fun _ => portSettledIn_granted
  | scrubLine fs => exact portSettledIn_scrubLine fs s
  | selfRefreshEntry => exact portSettledIn_selfRefreshEntry s
  | selfRefreshExit => exact portSettledIn_ite fun _ => portSettledIn_concluded
  | intervalExpiry => exact portSettledIn_intervalExpiry s
  | scrubTick => exact portSettledIn_scrubTick s
  | delayTimerExpiry r => exact portSettledIn_delayTimerExpiry r s
  | periodTimerExpiry => exact portSettledIn_periodTimerExpiry s
  | graceTimerExpiry => exact portSettledIn_ite fun _ => portSettledIn_concluded
  | drainDeadlineExpiry => exact portSettledIn_drainDeadlineExpiry s
  | completionWrite r => exact portSettledIn_completionWrite r s
  | completionDiscard src => exact portSettledIn_completionDiscard src s
  | deleteConversion c => exact portSettledIn_ite fun _ => portSettledIn_concluded

theorem asksNoMore_idleTick (s : State) : s.AsksNoMore s.idleTick := by
  unfold State.idleTick
  split
  · exact (asksNoMore_elapse s _).trans .untouched
  · exact .refl s

/-- No request is left at a free port by a step (R100). -/
theorem step_portSettled {s t : State} (hs : settlePort s = s) (h : step s = .next t) : settlePort t = t := by
  unfold step at h
  split at h
  · cases h
    exact (asksNoMore_idleTick s).settled hs
  · rename_i i rest _
    exact exec_portSettledIn i { s with pending := rest } t h (State.AsksNoMore.settled .untouched hs)

/-! ### The obligation -/

theorem grantPort_slot (s : State) (k : Fin 4) :
    grantPort s (.slot k) =
      { s.setSlot k { s.slot k with port := .inProgress } with
        port :=
          match (s.slot k).cls with
          | .urgent => { s.port with holder := .slot k, urgentPointer := k }
          | .bulk => { s.port with holder := .slot k, bulkPointer := k } } := by
  have hport : { s.port.pointed (s.slot k).cls k with holder := .slot k } =
      match (s.slot k).cls with
      | .urgent => { s.port with holder := .slot k, urgentPointer := k }
      | .bulk => { s.port with holder := .slot k, bulkPointer := k } := by
    cases (s.slot k).cls <;> rfl
  exact congrArg
    (fun p => { s.setSlot k { s.slot k with port := .inProgress } with port := p }) hport

/-- Settles O23: the order by the equations of `portChoice`, and settled ports by how commands end. -/
theorem portGrantOrder : Obligations.PortGrantOrder := by
  refine ⟨fun s => ?_, settlePort_same_iff.mpr (.inl PortHolder.noConfusion), fun s t => step_portSettled⟩
  intro waits first
  refine ⟨fun h => if_neg h, fun h => if_pos h, portChoice_notReady, fun hm => ⟨portChoice_forced hm, fun hd =>
    ⟨fun k hk => portChoice_urgent hm hd (slotRequests_first hk.1 hk.2), fun hu => ?_⟩⟩, grantPort_slot s, rfl, rfl, rfl, rfl⟩
  have hu' := slotRequests_none hu s.port.urgentPointer
  refine ⟨fun k hk => portChoice_bulk hm hd hu' (slotRequests_first hk.1 hk.2), fun hb => ?_⟩
  have hrest := portChoice_noSlot hm hd hu' (slotRequests_none hb s.port.bulkPointer)
  simp only [slotsIdle_iff, scrubRuns_iff hm] at hrest
  refine ⟨fun h => by rw [hrest, if_pos h], fun h0 => ⟨fun he => ?_, fun he => ?_⟩⟩
  · rw [hrest, if_neg (by omega), if_pos he]
  · rw [hrest, if_neg (by omega), if_neg he]

end Sys2Proof.Machine
end

section
/-! SUPPORT. The array's care: the Refresh Engine, the Health Store, the memory state and the holder of the port. Which
operations leave all four as they are. -/

-- One theorem at a time, as in the tests above: fewer threads than the memory limit allows.
set_option Elab.async false

namespace Sys2Proof.Machine

/-- What keeps the array: the Refresh Engine, the Health Store, the memory state and the holder of the port. -/
def State.care (s : State) : RefreshEngine × HealthStore × MemState × PortHolder :=
  (s.refresh, s.health, s.memState, s.port.holder)

theorem care_iff {s t : State} :
    t.care = s.care ↔
      t.refresh = s.refresh ∧ t.health = s.health ∧ t.memState = s.memState ∧ t.port.holder = s.port.holder := by
  simp [State.care]

/-! ### Handing over, vectors and grants of tags -/

@[simp] theorem handOut_care (s : State) (o : Outbound) : (s.handOut o).care = s.care := by
  obtain ⟨q, h⟩ := handOut_eq s o
  exact (congrArg State.care h :)

@[simp] theorem raise_care (s : State) (c : Cause) : (s.raise c).care = s.care := by
  obtain ⟨e, q, h⟩ := raise_eq s c
  exact (congrArg State.care h :)

theorem raiseAlert_care (s : State) (d : AlertDetail) : (s.raiseAlert d).care = s.care := raise_care s .monitorAlert

@[simp] theorem handOverAdmin_care (s : State) (st : Status) (v : Word32) : (s.handOverAdmin st v).care = s.care := by
  obtain ⟨a, h⟩ := handOverAdmin_eq s st v
  exact (congrArg State.care h :)

theorem sendVector_care (s : State) (r : Fin 9) : (sendVector s r).care = s.care := by
  obtain ⟨q, rs, h⟩ := sendVector_eq s r
  exact (congrArg State.care h :)

theorem signalRest_care (s : State) (r : Fin 9) : (signalRest s r).care = s.care := by
  obtain ⟨q, rs, h⟩ := signalRest_eq s r
  exact (congrArg State.care h :)

theorem writeEntry_care (s : State) (r : Fin 9) (c : Completion) : (writeEntry s r c).care = s.care := by
  obtain ⟨q, rs, h⟩ := writeEntry_eq s r c
  exact (congrArg State.care h :)

theorem settleLink_care (s : State) : (settleLink s).care = s.care :=
  (congrArg State.care (besideTags_settleLink s) :)

/-! ### Slots -/

theorem advanceSlot_care (s : State) (k : Fin 4) : (advanceSlot s k).care = s.care := by
  obtain ⟨ps, a, cs, w, ss, h⟩ := advanceSlot_eq s k
  exact (congrArg State.care h :)

theorem refuseSlot_care (s : State) (k : Fin 4) (st : Status) : (refuseSlot s k st).care = s.care := by
  obtain ⟨ps, a, cs, w, ss, h⟩ := refuseSlot_eq s k st
  exact (congrArg State.care h :)

theorem stopSlot_care (s : State) (k : Fin 4) (q : StopRequest) : (stopSlot s k q).care = s.care := by
  obtain ⟨ps, a, cs, w, ss, ts, h⟩ := stopSlot_eq s k q
  exact (congrArg State.care h :)

theorem stopBoundSlot_care (s : State) (c : Fin 16) : (stopBoundSlot s c).care = s.care := by
  unfold stopBoundSlot
  split
  · rfl
  · exact stopSlot_care s _ _

theorem stopAllSlots_care (s : State) (q : StopRequest) : (stopAllSlots s q).care = s.care := by
  obtain ⟨ps, a, cs, w, ss, ts, h⟩ := stopAllSlots_eq s q
  exact (congrArg State.care h :)

theorem enterRun_care (s : State) (k : Fin 4) (kind : Kind) : (enterRun s k kind).care = s.care := by
  obtain ⟨ps, h⟩ := takeRefs_eq s (s.slot k).entry kind
  exact (advanceSlot_care _ k).trans (congrArg State.care h :)

theorem scheduleChoice_care (s : State) (k : Fin 4) (c : Fin 16) (turn : Turn) :
    (scheduleChoice s k c turn).care = s.care := by
  unfold scheduleChoice
  split
  · rfl
  · obtain ⟨ps, a, cs, w, ss, h⟩ :=
      checkFields_eq { startSlot s k c ‹_› ‹_› with sched := s.sched.setTurn (choiceClass s) turn } k
    exact (congrArg State.care h :)

theorem readTaken_care (s : State) (k : Fin 4) (o : SlotOp) (good : List Byte) (failed : Bool) :
    (readTaken s k o good failed).care = s.care := by
  unfold readTaken
  simp only
  split
  · split
    · rfl
    · exact handOut_care s _
  · rfl
  · split <;> rfl
  · rfl

/-! ### The ends of host reads -/

theorem readDone_care (s : State) (x : Tag) (bs : List Byte) : (readDone s x bs).care = s.care := by
  obtain ⟨ps, a, cs, w, ss, fs, f, h⟩ := readDone_eq s x bs
  exact (congrArg State.care h :)

theorem readFailed_care (s : State) (x : Tag) : (readFailed s x).care = s.care := by
  obtain ⟨ps, a, cs, w, ss, fs, f, e, q, ts, h⟩ := readFailed_eq s x
  exact (congrArg State.care h :)

theorem failAllTags_care (s : State) : (failAllTags s).care = s.care := by
  obtain ⟨ps, a, cs, w, ss, fs, f, e, q, ts, h⟩ := failAllTags_eq s
  exact (congrArg State.care h :)

theorem linkLost_care (s : State) : (linkLost s).care = s.care := failAllTags_care _

theorem linkCleared_care (s : State) : (linkCleared s).care = s.care := failAllTags_care _

/-! ### Passages -/

theorem endDeletion_care (s : State) : (endDeletion s).care = s.care := by
  obtain ⟨cs, fs, rs, a, h⟩ := endDeletion_eq s
  exact (congrArg State.care h :)

theorem endQuiesce_care (s : State) : (endQuiesce s).care = s.care := by
  obtain ⟨rs, q, h⟩ := endQuiesce_eq s
  exact (congrArg State.care h :)

theorem quiesceStep_care (s : State) : (quiesceStep s).care = s.care := by
  obtain ⟨cs, fs, rs, h⟩ := foldl_quiesceChannel_eq allChannels s
  have hleft : (allChannels.foldl quiesceChannel s).care = s.care := (congrArg State.care h :)
  unfold quiesceStep
  simp only
  split
  · split
    · exact (endQuiesce_care _).trans hleft
    · exact hleft
  · rfl

theorem beginSettle_care (s : State) : (beginSettle s).care = s.care := by
  obtain ⟨cs, fs, rs, q, w, a, h⟩ := beginSettle_eq s
  exact (congrArg State.care h :)

theorem endFlush_care (s : State) (o : FlushOutcome) : (endFlush s o).care = s.care := beginSettle_care _

theorem settleStandby_care (s : State) : (settleStandby s).care = s.care := beginSettle_care _

theorem endStop_care (s : State) : (endStop s).care = s.care := by
  unfold endStop
  split
  · split
    · exact endFlush_care s _
    · rfl
  · exact beginSettle_care s

theorem stopStep_care (s : State) : (stopStep s).care = s.care := by
  obtain ⟨cs, w, h⟩ := foldl_terminateFetched_eq allChannels s
  have hended : (allChannels.foldl terminateFetched s).care = s.care := (congrArg State.care h :)
  unfold stopStep
  simp only
  split
  · split
    · exact (endStop_care _).trans hended
    · exact hended
  · rfl

theorem flushStep_care (s : State) : (flushStep s).care = s.care := by
  unfold flushStep
  split
  · exact endFlush_care s _
  · rfl

theorem settlePhases_care (s : State) : (settlePhases s).care = s.care :=
  (flushStep_care _).trans ((stopStep_care _).trans ((quiesceStep_care _).trans (endDeletion_care s)))

/-! ### Drains and resets that start -/

theorem startDrain_care (s : State) (reason : DrainReason) : (startDrain s reason).care = s.care :=
  stopAllSlots_care _ _

theorem takeTriggers_care (s : State) (l : List DrainReason) : (takeTriggers s l).care = s.care := by
  unfold takeTriggers
  split
  · rfl
  · exact startDrain_care s _
  · exact startDrain_care s _

theorem functionReset_care (s : State) : (functionReset s).care = s.care := stopAllSlots_care _ _

theorem linkDownTaken_care (s : State) : (linkDownTaken s).care = s.care := by
  unfold linkDownTaken
  split
  · exact startDrain_care s _
  · split
    · exact endFlush_care s _
    · rfl

theorem linkResetTaken_care (s : State) : (linkResetTaken s).care = s.care := by
  unfold linkResetTaken
  split
  · exact startDrain_care s _
  · split <;> rfl

theorem graceExpired_care (s : State) : (graceExpired s).care = s.care := by
  unfold graceExpired trigger
  split
  · exact startDrain_care _ _
  · rfl

theorem deadlineExpired_care (s : State) : (deadlineExpired s).care = s.care := by
  unfold deadlineExpired
  split
  · exact endFlush_care s _
  · rfl

/-! ### Register writes and completions -/

theorem faultRing_care (s : State) (r : Fin 9) : (faultRing s r).care = s.care := by
  unfold faultRing
  simp only
  split
  · exact (raise_care _ _).trans (sendVector_care _ r)
  · exact raise_care _ _

theorem takeHead_care (s : State) (r : Fin 9) (n : Nat) : (takeHead s r n).care = s.care := by
  unfold takeHead
  simp only
  split
  · rfl
  · exact faultRing_care s r

theorem takeBeat_care (s : State) (token : BitVec 8) : (takeBeat s token).care = s.care := by
  unfold takeBeat
  simp only
  split
  · rfl
  · rfl
  · split
    · rfl
    · split
      · exact raiseAlert_care _ _
      · rfl
  · split <;> rfl

theorem delayExpired_care (s : State) (r : Fin 9) : (delayExpired s r).care = s.care := by
  unfold delayExpired
  split
  · exact sendVector_care s r
  · rfl

theorem writeFromChannel_care (s : State) (r : Fin 9) (c : Fin 16) (f : Completion) :
    (writeFromChannel s r c f).care = s.care := writeEntry_care _ r f

theorem writeFromAdmin_care (s : State) (f : Completion) : (writeFromAdmin s f).care = s.care := writeEntry_care _ 0 f

theorem writeDrainAdmin_care (s : State) (f : Completion) : (writeDrainAdmin s f).care = s.care := writeEntry_care _ 0 f

/-! ### Commands of the admin ring (R134) -/

@[simp] theorem done_care (t : State) (st : Status) (v : Word32) : (Taken.done t st v).state.care = t.care :=
  handOverAdmin_care t st v

@[simp] theorem refused_care (s : State) (st : Status) : (Taken.refused s st).state.care = s.care := done_care s st 0

@[simp] theorem postRecord_care (s : State) (r : Record) (bytes : List Byte) : (postRecord s r bytes).care = s.care :=
  handOut_care s _

theorem withPartition_care {s : State} {r : Record} {body : Fin 16 → Taken} (h : ∀ i, (body i).state.care = s.care) :
    (withPartition s r body).state.care = s.care := by
  unfold withPartition
  split
  · exact refused_care s _
  · split
    · exact refused_care s _
    · exact h _

theorem withChannel_care {s : State} {r : Record} {body : Fin 16 → Taken} (h : ∀ c, (body c).state.care = s.care) :
    (withChannel s r body).state.care = s.care := by
  unfold withChannel
  split
  · exact refused_care s _
  · split
    · exact refused_care s _
    · exact h _

theorem definePart_care (s : State) (r : Record) (i : Fin 16) : (definePart s r i).state.care = s.care := by
  obtain ⟨st, h⟩ | ⟨p, -, h⟩ := definePart_cases s r i <;> rw [h]
  · exact refused_care s st
  · exact done_care _ _ _

theorem freezePart_care (s : State) (i : Fin 16) : (freezePart s i).state.care = s.care := by
  unfold freezePart
  split_ifs
  · exact refused_care s _
  · exact refused_care s _
  · exact refused_care s _
  · exact done_care _ _ _

theorem releasePart_care (s : State) (i : Fin 16) : (releasePart s i).state.care = s.care := by
  unfold releasePart
  split_ifs
  · exact refused_care s _
  · exact done_care (freePart s i) _ _
  · rfl

theorem clearTornPart_care (s : State) (i : Fin 16) : (clearTornPart s i).state.care = s.care := by
  unfold clearTornPart
  split_ifs
  · exact refused_care s _
  · exact done_care _ _ _

theorem getPartitions_care (s : State) (r : Record) : (getPartitions s r).state.care = s.care := by
  unfold getPartitions
  split_ifs <;> simp

theorem getHealth_care (s : State) (r : Record) : (getHealth s r).state.care = s.care := by
  unfold getHealth
  split_ifs <;> simp

theorem getRetentionRecord_care (s : State) (r : Record) : (getRetentionRecord s r).state.care = s.care := by
  unfold getRetentionRecord
  split_ifs <;> simp

theorem createChannel_care (s : State) (r : Record) : (createChannel s r).state.care = s.care := by
  have hrefused : ∀ st, (Taken.refused s st).state.care = s.care := refused_care s
  unfold createChannel
  split
  · exact hrefused _
  split
  · exact hrefused _
  split
  · exact hrefused _
  split
  · exact hrefused _
  split
  · exact hrefused _
  split
  · split
    · exact done_care _ _ _
    · exact hrefused _
  · exact hrefused _

theorem deleteChan_care (s : State) (c : Fin 16) : (deleteChan s c).state.care = s.care := stopBoundSlot_care _ c

theorem pauseChan_care (s : State) (c : Fin 16) : (pauseChan s c).state.care = s.care := by
  unfold pauseChan
  split_ifs
  · exact refused_care s _
  · exact done_care _ _ _

theorem resumeChan_care (s : State) (c : Fin 16) : (resumeChan s c).state.care = s.care := by
  unfold resumeChan
  simp only
  split_ifs
  · exact done_care _ _ _
  · exact refused_care s _

theorem createCq_care (s : State) (r : Record) : (createCq s r).state.care = s.care := by
  unfold createCq
  split
  · exact refused_care s _
  · split_ifs
    · exact refused_care s _
    · exact done_care _ _ _
    · exact refused_care s _

theorem deleteCq_care (s : State) (r : Record) : (deleteCq s r).state.care = s.care := by
  unfold deleteCq
  split
  · exact refused_care s _
  · split_ifs
    · exact refused_care s _
    · exact refused_care s _
    · exact (done_care _ _ _).trans (signalRest_care s _)

theorem setScrub_care (s : State) (r : Record) : (setScrub s r).state.care = s.care := by
  unfold setScrub
  simp only
  split
  · exact refused_care s _
  · exact done_care _ _ _

theorem setMonitor_care (s : State) (r : Record) : (setMonitor s r).state.care = s.care := by
  unfold setMonitor
  simp only
  split_ifs
  · exact refused_care s _
  · exact refused_care s _
  · exact refused_care s _
  · exact done_care _ _ _
  · exact done_care _ _ _

theorem setLinkTimeout_care (s : State) (r : Record) : (setLinkTimeout s r).state.care = s.care := by
  unfold setLinkTimeout
  simp only
  split
  · exact refused_care s _
  · exact done_care _ _ _

theorem setDrain_care (s : State) (r : Record) : (setDrain s r).state.care = s.care := by
  unfold setDrain
  simp only
  split
  · exact refused_care s _
  · exact done_care _ _ _

theorem claimRetained_care (s : State) (r : Record) : (claimRetained s r).state.care = s.care := by
  unfold claimRetained
  split
  · exact refused_care s _
  · exact done_care _ _ _

theorem discardRetained_care (s : State) (r : Record) : (discardRetained s r).state.care = s.care := by
  unfold discardRetained
  split
  · exact refused_care s _
  · exact done_care _ _ _

end Sys2Proof.Machine
end

section
/-! SUPPORT. `State.Tends`: the laws of the Health Store and of the refresh debt are kept, and counters fall only where
a command may lower them (R114, R123, R124, R126). What time, grants of the port and reports of reads do to them. -/

-- One theorem at a time, as in the tests above: fewer threads than the memory limit allows.
set_option Elab.async false

namespace Sys2Proof.Machine

/-- No counter falls but at power-on, and the overflow count only by CLEAR_ERRORS (R123, R126). -/
def HealthStore.CountedBy (i : Instr) (x y : HealthStore) : Prop :=
  i ≠ .powerOn →
    x.correctable ≤ y.correctable ∧ x.uncorrectable ≤ y.uncorrectable ∧ x.overrun ≤ y.overrun ∧
      x.deferral ≤ y.deferral ∧ (i ≠ .clearErrors → x.overflow ≤ y.overflow)

/-- Command `i` keeps the laws of the array's care from `s` to `t`, and lowers no counter that it may not lower. -/
structure State.Tends (s : State) (i : Instr) (t : State) : Prop where
  health   : s.HealthLaw → t.HealthLaw
  counters : s.HealthLaw → s.health.CountedBy i t.health
  refresh  : s.RefreshLaw → t.RefreshLaw

section
variable {i : Instr}

theorem HealthStore.CountedBy.refl (x : HealthStore) : x.CountedBy i x :=
  fun _ => ⟨le_rfl, le_rfl, le_rfl, le_rfl, fun _ => le_rfl⟩

theorem HealthStore.CountedBy.trans {x y z : HealthStore} (h : x.CountedBy i y) (h' : y.CountedBy i z) :
    x.CountedBy i z := fun hi => by
  obtain ⟨hc, hu, hr, hd, ho⟩ := h hi
  obtain ⟨hc', hu', hr', hd', ho'⟩ := h' hi
  exact ⟨hc.trans hc', hu.trans hu', hr.trans hr', hd.trans hd', fun hn => (ho hn).trans (ho' hn)⟩

/-- The law of the Health Store speaks of the Health Store alone. -/
theorem healthLaw_congr {s t : State} (h : t.health = s.health) : t.HealthLaw ↔ s.HealthLaw := by
  simp only [State.HealthLaw, h]

/-- The law of the refresh debt speaks of what the array's care names. -/
theorem refreshLaw_congr {s t : State} (hr : t.refresh = s.refresh) (hm : t.memState = s.memState)
    (hh : t.port.holder = s.port.holder) : t.RefreshLaw ↔ s.RefreshLaw := by
  simp only [State.RefreshLaw, hr, hm, hh]

namespace State.Tends

theorem of_care {s t : State} (h : t.care = s.care) : s.Tends i t := by
  obtain ⟨hr, hh, hm, hp⟩ := care_iff.mp h
  exact ⟨(healthLaw_congr hh).mpr, fun _ => hh ▸ .refl _, (refreshLaw_congr hr hm hp).mpr⟩

theorem refl (s : State) : s.Tends i s := of_care rfl

theorem trans {s t u : State} (h : s.Tends i t) (h' : t.Tends i u) : s.Tends i u :=
  ⟨fun hs => h'.health (h.health hs), fun hs => (h.counters hs).trans (h'.counters (h.health hs)),
    fun hs => h'.refresh (h.refresh hs)⟩

/-- A change that leaves the array's care, before one that tends it; for an update of other fields by computation. -/
theorem after {s t u : State} (h : t.Tends i u) (hc : t.care = s.care := by rfl) : s.Tends i u := (of_care hc).trans h

/-- The Health Store is the same. -/
theorem of_refresh {s t : State} (hh : t.health = s.health) (hr : s.RefreshLaw → t.RefreshLaw) : s.Tends i t :=
  ⟨(healthLaw_congr hh).mpr, fun _ => hh ▸ .refl _, hr⟩

/-- The Health Store alone has changed. -/
theorem of_health {s : State} {x : HealthStore} (hl : s.HealthLaw → { s with health := x }.HealthLaw)
    (hc : s.HealthLaw → s.health.CountedBy i x) : s.Tends i { s with health := x } :=
  ⟨hl, hc, id⟩

end State.Tends

/-! ### Time -/

/-- Time runs the interval timer and nothing else of the array's care. -/
theorem tends_elapse (s : State) (n : Nat) : s.Tends i (s.elapse n) :=
  .of_refresh rfl fun ⟨hdebt, hpending, hstill, hexit⟩ =>
    ⟨hdebt, hpending, fun h => ⟨(hstill h).1, congrArg (countDown n) (hstill h).2⟩, hexit⟩

theorem tends_idleTick (s : State) : s.Tends i s.idleTick := by
  unfold State.idleTick
  split
  · exact (tends_elapse s _).trans (.of_care rfl)
  · exact .refl s

/-! ### The port (R98, R100, R110, R113) -/

/-- The port passes to a holder that is no self-refresh passage. -/
theorem refreshLaw_of_holder {s t : State} (hr : t.refresh = s.refresh) (hm : t.memState = s.memState)
    (hn : t.port.holder ≠ .selfRefreshEntry) (hx : t.port.holder ≠ .selfRefreshExit) (h : s.RefreshLaw) :
    t.RefreshLaw := by
  obtain ⟨hdebt, hpending, hstill, -⟩ := h
  rw [State.RefreshLaw, hr, hm]
  exact ⟨hdebt, hpending, fun h => hstill (.inl (h.resolve_right hn)), fun h => absurd h hx⟩

theorem tends_releasePort (s : State) : s.Tends i (releasePort s) :=
  .of_refresh rfl (refreshLaw_of_holder rfl rfl PortHolder.noConfusion PortHolder.noConfusion)

/-- Self-refresh entry is granted without debt, so no limit is pending, and stops the interval timer (R100, R110). -/
theorem refreshLaw_grant_entry {s : State} (hd : s.refresh.debt = 0) (h : s.RefreshLaw) :
    (grantPort s .selfRefreshEntry).RefreshLaw := by
  obtain ⟨hdebt, hpending, -, -⟩ := h
  exact ⟨hdebt, hpending, fun _ => ⟨hd, rfl⟩, nofun⟩

theorem tends_grantPort {s : State} {h : PortHolder} (hd : h = .selfRefreshEntry → s.refresh.debt = 0) :
    s.Tends i (grantPort s h) := by
  cases h with
  | slot k | refreshEngine | scrubUnit =>
    exact .of_refresh rfl (refreshLaw_of_holder rfl rfl PortHolder.noConfusion PortHolder.noConfusion)
  | selfRefreshEntry => exact .of_refresh rfl (refreshLaw_grant_entry (hd rfl))
  | none | selfRefreshExit | arrayStart => exact .refl s

theorem tends_settlePort (s : State) : s.Tends i (settlePort s) := by
  unfold settlePort
  split
  · exact tends_grantPort fun h => (portChoice_entry h).2.2
  · exact .refl s

theorem tends_conclude (s : State) : s.Tends i (conclude s) :=
  (tends_settlePort _).after ((settleLink_care _).trans (settlePhases_care s))

/-! ### The Health Store (R104, R123 to R125) -/

theorem le_raised {top c : Nat} (h : c ≤ top) (n : Nat) : c ≤ raised top n c := le_min h (Nat.le_add_right c n)

theorem raised_le (top n c : Nat) : raised top n c ≤ top := Nat.min_le_left _ _

theorem tends_raise (s : State) (c : Cause) : s.Tends i (s.raise c) := .of_care (raise_care s c)

/-- A line joins a list that has room and does not hold it (R124). -/
theorem tends_joined {s : State} {a : Nat} (ha : a % 64 = 0) (hnew : a ∉ s.health.lines)
    (hroom : s.health.lines.length < 8) : s.Tends i { s with health := s.health.joined a } := by
  refine .of_health (fun ⟨_, hnodup, hlines, hrest⟩ => ⟨?_, ?_, ?_, hrest⟩) fun _ => .refl _
  · simpa [HealthStore.joined] using hroom
  · exact List.nodup_append.mpr ⟨hnodup, List.nodup_singleton a, fun x hx y hy e => by
      obtain rfl := List.mem_singleton.mp hy
      exact hnew (e ▸ hx)⟩
  · intro b hb
    obtain hb | hb := List.mem_append.mp hb
    · exact hlines b hb
    · obtain rfl := List.mem_singleton.mp hb
      exact ha

theorem tends_overflowed (s : State) : s.Tends i { s with health := s.health.overflowed } :=
  .of_health (fun ⟨hlen, hnodup, hlines, hc, hu, hr, hd, _⟩ => ⟨hlen, hnodup, hlines, hc, hu, hr, hd, raised_le _ _ _⟩)
    fun ⟨_, _, _, _, _, _, _, ho⟩ _ => ⟨le_rfl, le_rfl, le_rfl, le_rfl, fun _ => le_raised ho 1⟩

theorem tends_offerLine {a : Nat} (ha : a % 64 = 0) (s : State) : s.Tends i (offerLine s a) := by
  by_cases hin : a ∈ s.health.lines
  · rw [offerLine_listed hin]
    exact .refl s
  by_cases hroom : s.health.lines.length < 8
  · rw [offerLine_joins hin hroom]
    exact (tends_joined ha hin hroom).trans (tends_raise _ _)
  · rw [offerLine_overflows hin (not_lt.mp hroom)]
    exact tends_overflowed s

theorem tends_foldl_offerLine {l : List Nat} (hl : ∀ a ∈ l, a % 64 = 0) (s : State) :
    s.Tends i (l.foldl offerLine s) := by
  induction l generalizing s with
  | nil => exact .refl s
  | cons a l ih =>
    obtain ⟨ha, hl⟩ := List.forall_mem_cons.mp hl
    exact (tends_offerLine ha s).trans (ih hl _)

/-- Words counted (R123). -/
theorem tends_counted (s : State) (ws : List (Nat × Finding)) : s.Tends i (s.counted ws) :=
  .of_health
    (fun ⟨hlen, hnodup, hlines, _, _, hrest⟩ => ⟨hlen, hnodup, hlines, raised_le _ _ _, raised_le _ _ _, hrest⟩)
    fun ⟨_, _, _, hc, hu, _⟩ _ => ⟨le_raised hc _, le_raised hu _, le_rfl, le_rfl, fun _ => le_rfl⟩

theorem badLines_aligned {ws : List (Nat × Finding)} {a : Nat} (h : a ∈ badLines ws) : a % 64 = 0 := by
  obtain ⟨w, -, -, rfl⟩ := mem_badLines.mp h
  exact Nat.mul_mod_left _ 64

theorem tends_reportFindings (s : State) (ws : List (Nat × Finding)) : s.Tends i (reportFindings s ws) :=
  (tends_counted s ws).trans (tends_foldl_offerLine (fun _ => badLines_aligned) _)

/-- Lines written whole leave the list (R125). -/
theorem tends_removeLines (s : State) (written : List Nat) : s.Tends i (removeLines s written) :=
  .of_health
    (fun ⟨hlen, hnodup, hlines, hrest⟩ =>
      ⟨(List.length_filter_le _ _).trans hlen, hnodup.filter _, fun a ha => hlines a (List.mem_of_mem_filter ha),
        hrest⟩)
    fun _ => .refl _

/-- An overrun counted (R114, R123). -/
theorem tends_overrun (s : State) :
    s.Tends i { s with health := { s.health with overrun := raised 65535 1 s.health.overrun } } :=
  .of_health
    (fun ⟨hlen, hnodup, hlines, hc, hu, _, hrest⟩ => ⟨hlen, hnodup, hlines, hc, hu, raised_le _ _ _, hrest⟩)
    fun ⟨_, _, _, _, _, hr, _⟩ _ => ⟨le_rfl, le_rfl, le_raised hr 1, le_rfl, fun _ => le_rfl⟩

/-- A scrub deferral counted (R119, R123). -/
theorem tends_deferral (s : State) :
    s.Tends i { s with health := { s.health with deferral := raised 65535 1 s.health.deferral } } :=
  .of_health
    (fun ⟨hlen, hnodup, hlines, hc, hu, hr, _, ho⟩ => ⟨hlen, hnodup, hlines, hc, hu, hr, raised_le _ _ _, ho⟩)
    fun ⟨_, _, _, _, _, _, hd, _⟩ _ => ⟨le_rfl, le_rfl, le_rfl, le_raised hd 1, fun _ => le_rfl⟩

/-! ### The refresh debt (R109 to R117) -/

/-- One refresh served: a pending limit one below the debt that is left comes into force (R115, R117). -/
theorem served_eq (e : RefreshEngine) :
    e.served =
      if e.pendingLimit = some (e.debt - 2) ∧ 2 ≤ e.debt then
        { e with debt := e.debt - 1, limit := e.debt - 2, pendingLimit := none }
      else { e with debt := e.debt - 1 } := by
  cases hp : e.pendingLimit with
  | none => simp [RefreshEngine.served, hp]
  | some p =>
    simp only [RefreshEngine.served, hp, Option.some.injEq]
    by_cases h : e.debt - 1 = p + 1
    · obtain rfl : p = e.debt - 2 := by omega
      have h2 : 2 ≤ e.debt := by omega
      rw [if_pos h, if_pos ⟨rfl, h2⟩]
    · rw [if_neg h, if_neg fun ⟨hpe, h2⟩ => h (by omega)]

/-- One refresh served keeps the law: a pending limit that stays is still below the debt less one (R115 to R117). -/
theorem refreshLaw_served {s : State} (h : s.RefreshLaw) :
    { releasePort s with refresh := s.refresh.served }.RefreshLaw := by
  obtain ⟨hdebt, hpending, hstill, -⟩ := h
  have hnone (hm : s.memState ≠ .ready ∨ PortHolder.none = .selfRefreshEntry) :
      s.refresh.debt - 1 = 0 ∧ s.refresh.timer = none := by
    obtain ⟨hd, ht⟩ := hstill (.inl (hm.resolve_right PortHolder.noConfusion))
    exact ⟨by omega, ht⟩
  rw [served_eq]
  split
  · exact ⟨show s.refresh.debt - 1 ≤ s.refresh.debt - 2 + 1 by omega, nofun, hnone, nofun⟩
  · rename_i hno
    refine ⟨(Nat.sub_le _ _).trans hdebt, fun p hp => ?_, hnone, nofun⟩
    have hbelow := hpending p hp
    show p + 1 < s.refresh.debt - 1
    by_contra hge
    exact hno ⟨hp.trans (congrArg some (by omega)), by omega⟩

/-- The interval timer runs only where the array is READY and self-refresh entry is not in progress (R113). -/
theorem refreshLaw_timer {s : State} (h : s.RefreshLaw) (ht : s.refresh.timer.isSome = true) :
    s.memState = .ready ∧ s.port.holder ≠ .selfRefreshEntry := by
  obtain ⟨-, -, hstill, -⟩ := h
  have hno : ¬(s.memState ≠ .ready ∨ s.port.holder = .selfRefreshEntry) := fun hn => by
    rw [(hstill hn).2] at ht
    cases ht
  exact ⟨not_not.mp (not_or.mp hno).1, (not_or.mp hno).2⟩

/-- An expiry raises the debt below the limit plus one, and counts an overrun there (R114). -/
theorem tends_accrue {s : State} (ht : s.refresh.timer.isSome = true) : s.Tends i (accrue s) := by
  unfold accrue
  split
  · rename_i hlt
    refine .of_refresh rfl fun h => ?_
    obtain ⟨hready, hentry⟩ := refreshLaw_timer h ht
    obtain ⟨-, hpending, -, hexit⟩ := h
    exact ⟨hlt, fun p hp => (hpending p hp).trans (Nat.lt_succ_self _),
      fun hn => hn.elim (absurd hready) (absurd · hentry), hexit⟩
  · exact (tends_overrun s).trans (tends_raise _ _)

theorem accrue_timer (s : State) : (accrue s).refresh.timer = s.refresh.timer := by
  unfold accrue
  split
  · rfl
  · obtain ⟨hr, -⟩ := care_iff.mp
      (raise_care { s with health := { s.health with overrun := raised 65535 1 s.health.overrun } } .refreshOverrun)
    rw [hr]

/-- A running interval timer starts again (R113). -/
theorem tends_restarted {s : State} (ht : s.refresh.timer.isSome = true) :
    s.Tends i { s with refresh := s.refresh.restarted } :=
  .of_refresh rfl fun h => by
    obtain ⟨hready, hentry⟩ := refreshLaw_timer h ht
    obtain ⟨hdebt, hpending, -, hexit⟩ := h
    exact ⟨hdebt, hpending, fun hn => hn.elim (absurd hready) (absurd · hentry), hexit⟩

theorem tends_intervalExpired {s : State} (ht : s.refresh.timer.isSome = true) : s.Tends i (intervalExpired s) :=
  (tends_accrue ht).trans ((tends_restarted ((accrue_timer s).symm ▸ ht)).trans (tends_settlePort _))

/-- A new limit is in force at once where the debt allows it, and otherwise pending below the debt less one (R116). -/
theorem refreshLaw_withLimit {s : State} (interval : Option Nat) (limit : Nat) (h : s.RefreshLaw) :
    { s with refresh := { s.refresh with pendingInterval := interval }.withLimit limit }.RefreshLaw := by
  obtain ⟨hdebt, -, hstill, hexit⟩ := h
  unfold RefreshEngine.withLimit
  split
  · rename_i hle
    exact ⟨Nat.le_add_of_sub_le hle, nofun, hstill, hexit⟩
  · rename_i hgt
    refine ⟨hdebt, fun p hp => ?_, hstill, hexit⟩
    cases hp
    have : ¬s.refresh.debt - 1 ≤ limit := hgt
    show limit + 1 < s.refresh.debt
    omega

/-- The array becomes READY with a debt of one, which is within every limit (R109, R111, R113). -/
theorem refreshLaw_start {s t : State} (hm : s.memState ≠ .ready) (hr : t.refresh = s.refresh.start)
    (hready : t.memState = .ready) (hh : t.port.holder = .none) (h : s.RefreshLaw) : t.RefreshLaw := by
  obtain ⟨-, hpending, hstill, -⟩ := h
  have hdebt := (hstill (.inl hm)).1
  rw [State.RefreshLaw, hr, hready, hh]
  refine ⟨Nat.le_add_left 1 _, fun p hp => ?_, fun hn => ?_, nofun⟩
  · have := hpending p hp
    omega
  · exact hn.elim (absurd rfl) nofun

/-- The array leaves READY, or a passage of self-refresh ends, with the debt and the timer as they stand at 0 (R113). -/
theorem refreshLaw_still {s t : State} (hs : s.memState ≠ .ready ∨ s.port.holder = .selfRefreshEntry)
    (hr : t.refresh = s.refresh) (hx : t.port.holder = .selfRefreshExit → t.memState = .exiting) (h : s.RefreshLaw) :
    t.RefreshLaw := by
  obtain ⟨hdebt, hpending, hstill, -⟩ := h
  rw [State.RefreshLaw, hr]
  exact ⟨hdebt, hpending, fun _ => hstill hs, hx⟩

end

end Sys2Proof.Machine
end

section
/-! SUPPORT. Every command tends the array's care (`exec_tendsIn`): the laws of the Health Store and of the refresh debt
are kept, and no counter falls that the command may not lower. Settles O6, O8 and O18. -/

-- One theorem at a time, as in the tests above: fewer threads than the memory limit allows.
set_option Elab.async false

namespace Sys2Proof.Machine

/-- Each next state that the outcome can be tends the array's care as command `i` may. -/
def State.TendsIn (i : Instr) (s : State) (o : Out) : Prop := ∀ t, o = .next t → s.Tends i t

section
variable {i : Instr} {s t : State}

theorem tendsIn_next (h : s.Tends i t) : State.TendsIn i s (.next t) := fun _ e => by
  cases e
  exact h

theorem tendsIn_fault (f : Fault) : State.TendsIn i s (.fault f) := fun _ e => nomatch e

/-- A command that leaves the array's care; for an update of other fields by computation. -/
theorem tendsIn_care (h : t.care = s.care := by rfl) : State.TendsIn i s (.next t) := tendsIn_next (.of_care h)

theorem tendsIn_same : State.TendsIn i s (.next s) := tendsIn_care

theorem tendsIn_raised (c : Cause) : State.TendsIn i s (.next (s.raise c)) := tendsIn_care (raise_care s c)

theorem tendsIn_concluded (h : t.care = s.care := by rfl) : State.TendsIn i s (.next (conclude t)) :=
  tendsIn_next ((tends_conclude t).after h)

theorem tendsIn_linked (h : t.care = s.care := by rfl) : State.TendsIn i s (.next (settleLink t)) :=
  tendsIn_care ((settleLink_care t).trans h)

theorem tendsIn_ite {p : Prop} [Decidable p] (h : p → State.TendsIn i s (.next t)) :
    State.TendsIn i s (.next (if p then t else s)) := by
  split
  · exact h ‹_›
  · exact tendsIn_same

/-! ### Commands of the admin ring (R134) -/

theorem tendsIn_takeCommand {codes : Nat → Bool} {body : State → Record → Taken} {fin : State → State}
    (hf : ∀ u : State, u.Tends i (fin u)) (hb : ∀ (s : State) (r : Record), s.Tends i (body s r).state) (s : State) :
    State.TendsIn i s (takeCommand codes body fin s) := by
  unfold takeCommand
  split
  · exact tendsIn_same
  · split
    · exact tendsIn_next (((hb (beginCommand s _ _) _).after).trans (hf _))
    · exact tendsIn_same

/-- A command of the admin ring that leaves the array's care, and ends with the link settled. -/
theorem tendsIn_taken {codes : Nat → Bool} {body : State → Record → Taken}
    (hb : ∀ (s : State) (r : Record), (body s r).state.care = s.care) (s : State) :
    State.TendsIn i s (takeCommand codes body settleLink s) :=
  tendsIn_takeCommand (fun u => .of_care (settleLink_care u)) (fun s r => .of_care (hb s r)) s

theorem tends_done (h : s.Tends i t) (st : Status) (v : Word32) : s.Tends i (Taken.done t st v).state :=
  h.trans (.of_care (done_care t st v))

theorem tends_setRefresh (s : State) (r : Record) : s.Tends i (setRefresh s r).state := by
  unfold setRefresh
  simp only
  split
  · exact .of_care (refused_care s _)
  · split
    · exact .of_care (refused_care s _)
    · refine tends_done ?_ _ _
      exact .of_refresh rfl (refreshLaw_withLimit _ _)

theorem tendsIn_setRefresh (s : State) : State.TendsIn i s (execSetRefresh s) :=
  tendsIn_takeCommand (fun u => .of_care (settleLink_care u)) tends_setRefresh s

/-- CLEAR_ERRORS empties the list and lowers the overflow count alone (R126). -/
theorem tends_clearErrors (s : State) (r : Record) : s.Tends .clearErrors (clearErrors s r).state := by
  refine tends_done (.of_health ?_ ?_) _ _
  · exact fun ⟨_, _, _, hc, hu, hr, hd, _⟩ => ⟨Nat.zero_le 8, .nil, nofun, hc, hu, hr, hd, Nat.zero_le 255⟩
  · exact fun _ _ => ⟨le_rfl, le_rfl, le_rfl, le_rfl, absurd rfl⟩

theorem tendsIn_clearErrors (s : State) : State.TendsIn .clearErrors s (execClearErrors s) :=
  tendsIn_takeCommand (fun u => .of_care (settleLink_care u)) tends_clearErrors s

end

/-! ### Register writes -/

/-- A self-refresh exit is requested in self-refresh, where the debt is 0 (R111, R113, R163). -/
theorem tends_beginExit {i : Instr} {s : State} (hm : s.memState = .selfRefresh) : s.Tends i (beginExit s) :=
  .of_refresh rfl (refreshLaw_still (.inl (by simp [hm])) rfl fun _ => rfl)

theorem tends_enableStandby {i : Instr} (s : State) : s.Tends i (enableStandby s) := by
  unfold enableStandby
  refine (tends_conclude _).after ?_
  split
  · rfl
  · exact startDrain_care _ _

theorem tendsIn_enable (s : State) : State.TendsIn .enable s (execEnable s) := by
  unfold execEnable
  split
  · exact tendsIn_same
  split
  · split
    · exact tendsIn_next (tends_enableStandby s)
    · exact tendsIn_raised _
  · split
    · exact tendsIn_same
    · rename_i hm
      split
      · exact tendsIn_next (tends_beginExit (not_not.mp hm))
      · exact tendsIn_raised _
  all_goals exact tendsIn_same

theorem tendsIn_functionReset (s : State) : State.TendsIn .functionReset s (execFunctionReset s) := by
  unfold execFunctionReset
  split
  · exact tendsIn_same
  split
  · exact tendsIn_concluded (functionReset_care s)
  · exact tendsIn_ite fun _ => tendsIn_care

theorem tendsIn_notifySqTail (ring : BitVec 8) (index : BitVec 16) (s : State) :
    State.TendsIn (.notifySqTail ring index) s (execNotifySqTail ring index s) := by
  unfold execNotifySqTail
  split
  · exact tendsIn_same
  split
  · unfold notifyAdminTail
    split
    · exact tendsIn_linked
    · exact tendsIn_raised _
  split
  · exact tendsIn_raised _
  · unfold notifyChannelTail
    split
    · exact tendsIn_raised _
    · exact tendsIn_linked

theorem tendsIn_notifyCqHead (ring : BitVec 8) (index : BitVec 16) (s : State) :
    State.TendsIn (.notifyCqHead ring index) s (execNotifyCqHead ring index s) := by
  unfold execNotifyCqHead
  split
  · exact tendsIn_same
  split
  · exact tendsIn_raised _
  split
  · exact tendsIn_concluded (takeHead_care s _ _)
  · exact tendsIn_raised _

/-! ### Refresh, scrubbing and self-refresh -/

theorem tends_refreshServed {i : Instr} (s : State) :
    s.Tends i (settlePort { releasePort s with refresh := s.refresh.served }) := by
  have hserved : s.Tends i { releasePort s with refresh := s.refresh.served } := .of_refresh rfl refreshLaw_served
  exact hserved.trans (tends_settlePort _)

theorem tendsIn_intervalExpiry (s : State) : State.TendsIn .intervalExpiry s (execIntervalExpiry s) := by
  unfold execIntervalExpiry
  split
  · exact tendsIn_same
  split
  · exact tendsIn_same
  · rename_i left ht
    have hruns : (s.elapse left).refresh.timer.isSome = true := by simp [State.elapse, ht, countDown]
    exact tendsIn_next ((tends_elapse s left).trans (tends_intervalExpired hruns))

theorem tends_scrubTicked {i : Instr} (s : State) : s.Tends i (scrubTicked s) := by
  cases hr : s.scrub.request with
  | true =>
    rw [scrubTicked_deferred hr]
    exact (tends_deferral s).trans (.of_care rfl)
  | false =>
    rw [scrubTicked_asks hr]
    exact (tends_settlePort _).after

theorem tendsIn_scrubTick (s : State) : State.TendsIn .scrubTick s (execScrubTick s) := by
  unfold execScrubTick
  split
  · exact tendsIn_same
  split
  · exact tendsIn_same
  · exact tendsIn_next ((tends_elapse s _).trans (tends_scrubTicked _))

theorem tends_scrubLineEnd {i : Instr} (s : State) (fs : List Finding) : s.Tends i (scrubLineEnd s fs) := by
  have hfree : s.Tends i { releasePort s with scrub := s.scrub.served s.capacity.bytes } :=
    (tends_releasePort s).trans (.of_care rfl)
  unfold scrubLineEnd
  refine State.Tends.trans ?_ ((tends_reportFindings _ _).trans (tends_settlePort _))
  split
  · exact hfree.trans ((tends_removeLines _ _).after)
  · exact hfree

theorem tendsIn_scrubLine (fs : List Finding) (s : State) : State.TendsIn (.scrubLine fs) s (execScrubLine fs s) := by
  unfold execScrubLine
  split
  · split
    · exact tendsIn_next (tends_scrubLineEnd s fs)
    · exact tendsIn_fault _
  · exact tendsIn_same

theorem tends_entryComplete {i : Instr} {s : State} (hh : s.port.holder = .selfRefreshEntry) :
    s.Tends i (entryComplete s) := by
  unfold entryComplete
  refine State.Tends.trans ?_ (tends_raise _ _)
  exact .of_refresh rfl (refreshLaw_still (.inr hh) rfl nofun)

/-- The port is held for an exit in EXITING alone, so the exit finds no debt (R108, R111). -/
theorem tends_exitComplete {i : Instr} {s : State} (hh : s.port.holder = .selfRefreshExit) :
    s.Tends i (exitComplete s) :=
  .of_refresh rfl fun h => by
    have hm : s.memState ≠ .ready := by
      obtain ⟨-, -, -, hexit⟩ := h
      rw [hexit hh]
      exact MemState.noConfusion
    exact refreshLaw_start hm rfl rfl rfl h

theorem tendsIn_selfRefreshExit (s : State) : State.TendsIn .selfRefreshExit s (execSelfRefreshExit s) :=
  tendsIn_ite fun h => tendsIn_next
    ((tends_exitComplete h.2).trans ((tends_conclude _).after (takeTriggers_care _ _)))

/-! ### Timers and completions -/

theorem tendsIn_delayTimerExpiry (r : Fin 9) (s : State) :
    State.TendsIn (.delayTimerExpiry r) s (execDelayTimerExpiry r s) := by
  unfold execDelayTimerExpiry
  split
  · exact tendsIn_same
  split
  · exact tendsIn_same
  · exact tendsIn_next ((tends_elapse s _).trans (.of_care (delayExpired_care _ r)))

theorem tendsIn_drainDeadlineExpiry (s : State) :
    State.TendsIn .drainDeadlineExpiry s (execDrainDeadlineExpiry s) := by
  unfold execDrainDeadlineExpiry
  split
  · exact tendsIn_same
  split
  · exact tendsIn_same
  · exact tendsIn_next ((tends_elapse s _).trans ((tends_conclude _).after (deadlineExpired_care _)))

theorem tendsIn_completionWrite (r : Fin 9) (s : State) :
    State.TendsIn (.completionWrite r) s (execCompletionWrite r s) := by
  unfold execCompletionWrite
  split
  · exact tendsIn_same
  split
  · unfold writeAtWork
    split
    · split
      · exact tendsIn_same
      · exact tendsIn_concluded (writeFromAdmin_care s _)
    · split
      · exact tendsIn_same
      · split
        · exact tendsIn_same
        · exact tendsIn_concluded (writeFromChannel_care s _ _ _)
  split
  · unfold writeInFlush
    split
    · exact tendsIn_same
    · split
      · split
        · exact tendsIn_concluded (writeDrainAdmin_care s _)
        · exact tendsIn_concluded (writeFromChannel_care s _ _ _)
      · exact tendsIn_same
  · exact tendsIn_same

theorem tendsIn_completionDiscard (src : CompletionSource) (s : State) :
    State.TendsIn (.completionDiscard src) s (execCompletionDiscard src s) := by
  unfold execCompletionDiscard
  split
  · exact tendsIn_same
  split
  · unfold discardAtWork
    split <;> exact tendsIn_ite fun _ => tendsIn_concluded
  split
  · unfold discardInFlush
    split
    · exact tendsIn_same
    · split
      · split <;> exact tendsIn_concluded
      · exact tendsIn_same
  · exact tendsIn_same

/-! ### Descriptors and reads -/

theorem tendsIn_slotSchedulerChoice (s : State) :
    State.TendsIn .slotSchedulerChoice s (execSlotSchedulerChoice s) := by
  unfold execSlotSchedulerChoice
  split
  · exact tendsIn_same
  split
  · exact tendsIn_concluded (scheduleChoice_care s _ _ _)
  · exact tendsIn_same

theorem tendsIn_presentation (k : Fin 4) (s : State) : State.TendsIn (.presentation k) s (execPresentation k s) := by
  unfold execPresentation
  simp only
  split
  · exact tendsIn_same
  split
  · exact tendsIn_same
  split
  · exact tendsIn_concluded (refuseSlot_care s k _)
  · exact tendsIn_concluded (enterRun_care s k _)

/-- The port is released, its slot moves on, what was read is reported, and the happening is concluded. -/
theorem tends_portOperation {i : Instr} {s t : State} (ht : t.care = (releasePort s).care)
    (ws : List (Nat × Finding)) : s.Tends i (conclude (reportFindings t ws)) :=
  (tends_releasePort s).trans (((tends_reportFindings t ws).after ht).trans (tends_conclude _))

theorem tends_readBurstEnd {i : Instr} (s : State) (k : Fin 4) (o : SlotOp) (fs : List Finding) :
    s.Tends i (readBurstEnd s k o fs) := by
  unfold readBurstEnd
  exact tends_portOperation ((advanceSlot_care _ k).trans (readTaken_care _ _ _ _ _)) _

theorem tends_rmwWritten {i : Instr} (s : State) (k : Fin 4) (o : SlotOp) (w : Nat × Finding) :
    s.Tends i (rmwWritten s k o w) := by
  unfold rmwWritten
  refine tends_portOperation ?_ _
  exact advanceSlot_care _ k

theorem tends_rmwFailed {i : Instr} (s : State) (k : Fin 4) (o : SlotOp) (w : Nat × Finding) :
    s.Tends i (rmwFailed s k o w) := by
  unfold rmwFailed
  refine tends_portOperation ?_ _
  exact advanceSlot_care _ k

theorem tendsIn_readBurst (fs : List Finding) (s : State) : State.TendsIn (.readBurst fs) s (execReadBurst fs s) := by
  unfold execReadBurst
  split
  · exact tendsIn_same
  split
  · exact tendsIn_same
  split
  · exact tendsIn_next (tends_readBurstEnd s _ _ fs)
  · exact tendsIn_fault _

theorem tends_writeBurstEnd {i : Instr} (s : State) (k : Fin 4) (o : SlotOp) : s.Tends i (writeBurstEnd s k o) := by
  unfold writeBurstEnd
  refine (tends_releasePort s).trans (State.Tends.trans ?_ (tends_conclude _))
  refine (tends_removeLines _ _).after ?_
  exact advanceSlot_care _ k

theorem tendsIn_writeBurst (s : State) : State.TendsIn .writeBurst s (execWriteBurst s) := by
  unfold execWriteBurst
  split
  · exact tendsIn_same
  split
  · exact tendsIn_same
  split
  · exact tendsIn_next (tends_writeBurstEnd s _ _)
  · exact tendsIn_fault _

theorem tendsIn_readModifyWrite (f : Finding) (s : State) :
    State.TendsIn (.readModifyWrite f) s (execReadModifyWrite f s) := by
  unfold execReadModifyWrite
  split
  · exact tendsIn_same
  split
  · exact tendsIn_same
  split
  · simp only
    split
    · exact tendsIn_next (tends_rmwFailed s _ _ _)
    · exact tendsIn_next (tends_rmwWritten s _ _ _)
  · exact tendsIn_fault _

theorem tendsIn_hostReadData (g : Fin 16) (bs : List Byte) (s : State) :
    State.TendsIn (.hostReadData g bs) s (execHostReadData g bs s) := by
  unfold execHostReadData
  simp only
  split
  · exact tendsIn_same
  split
  · exact tendsIn_care
  · exact tendsIn_concluded (readDone_care _ _ _)

theorem tendsIn_readErrorReturn (g : Fin 16) (s : State) :
    State.TendsIn (.readErrorReturn g) s (execReadErrorReturn g s) := by
  unfold execReadErrorReturn
  split
  · exact tendsIn_same
  · exact tendsIn_concluded (readFailed_care _ _)

theorem tendsIn_linkReadTimeout (g : Fin 16) (s : State) :
    State.TendsIn (.linkReadTimeout g) s (execLinkReadTimeout g s) := by
  unfold execLinkReadTimeout
  split
  · exact tendsIn_same
  · exact tendsIn_next ((tends_elapse s _).trans ((tends_conclude _).after (readFailed_care _ _)))

theorem tendsIn_quarantineEnd (g : Fin 16) (s : State) :
    State.TendsIn (.quarantineEnd g) s (execQuarantineEnd g s) := by
  unfold execQuarantineEnd
  split
  · exact tendsIn_same
  · exact tendsIn_next ((tends_elapse s _).trans (.of_care (settleLink_care _)))

/-! ### Power -/

/-- Power-on leaves no error, no debt and no counter (R112, R123). -/
theorem tends_poweredOn (s : State) : s.Tends .powerOn (poweredOn s) :=
  ⟨fun _ => reset_healthLaw, fun _ => absurd rfl, fun _ => reset_refreshLaw⟩

/-- A warm start keeps the Health Store and begins without debt (R112, R162). -/
theorem tends_warmStarted (s : State) : s.Tends .warmStart (warmStarted s) :=
  .of_refresh rfl fun _ => ⟨Nat.zero_le _, nofun, fun _ => ⟨rfl, rfl⟩, nofun⟩

theorem tends_arrayReady {i : Instr} {s : State} (hm : s.memState = .init) : s.Tends i (arrayReady s) :=
  .of_refresh rfl (refreshLaw_start (by simp [hm]) rfl rfl rfl)

theorem tendsIn_memoryInitialisation (success : Bool) (s : State) :
    State.TendsIn (.memoryInitialisation success) s (execMemoryInitialisation success s) := by
  unfold execMemoryInitialisation
  split
  · rename_i h
    obtain ⟨-, -, hm⟩ := h
    split
    · refine tendsIn_next ((tends_arrayReady hm).trans ((tends_conclude _).after ?_))
      split
      · exact settleStandby_care _
      · rfl
    · exact tendsIn_next (.of_refresh rfl (refreshLaw_still (.inl (by simp [hm])) rfl nofun))
  · exact tendsIn_same

theorem tendsIn_pwrWarnAsserted (s : State) : State.TendsIn .pwrWarnAsserted s (execPwrWarnAsserted s) := by
  unfold execPwrWarnAsserted
  simp only
  split
  · exact tendsIn_same
  split
  · exact tendsIn_care
  split
  · exact tendsIn_concluded (startDrain_care _ _)
  split
  · exact tendsIn_concluded (settleStandby_care _)
  · exact tendsIn_care

/-! ### Every command -/

theorem exec_tendsIn (i : Instr) (s : State) : State.TendsIn i s (exec i s) := by
  cases i with
  | powerOn => exact tendsIn_ite fun _ => tendsIn_next (tends_poweredOn s)
  | warmStart => exact tendsIn_ite fun _ => tendsIn_next (tends_warmStarted s)
  | memoryInitialisation success => exact tendsIn_memoryInitialisation success s
  | coreLogicPowerDown => exact tendsIn_ite fun _ => tendsIn_care
  | pwrWarnAsserted => exact tendsIn_pwrWarnAsserted s
  | pwrWarnDeasserted => exact tendsIn_care
  | mainPowerLoss => exact tendsIn_ite fun _ => tendsIn_care
  | mainPowerReturn => exact tendsIn_care
  | backupSupplyFailure => exact tendsIn_ite fun _ => tendsIn_care
  | linkDown =>
    exact tendsIn_ite fun _ => tendsIn_concluded ((linkDownTaken_care (linkLost s)).trans (linkLost_care s))
  | linkUp => exact tendsIn_ite fun _ => tendsIn_linked
  | linkReset =>
    exact tendsIn_ite fun _ => tendsIn_concluded ((linkResetTaken_care (linkCleared s)).trans (linkCleared_care s))
  | hostReadData g bs => exact tendsIn_hostReadData g bs s
  | readErrorReturn g => exact tendsIn_readErrorReturn g s
  | linkReadTimeout g => exact tendsIn_linkReadTimeout g s
  | quarantineEnd g => exact tendsIn_quarantineEnd g s
  | messageEnable e g => exact tendsIn_ite fun _ => tendsIn_care
  | enable => exact tendsIn_enable s
  | quiesce => exact tendsIn_ite fun _ => tendsIn_concluded
  | functionReset => exact tendsIn_functionReset s
  | adminRingWrite f p v => exact tendsIn_ite fun _ => tendsIn_care
  | notifySqTail r n => exact tendsIn_notifySqTail r n s
  | notifyCqHead r n => exact tendsIn_notifyCqHead r n s
  | heartbeatWrite v => exact tendsIn_ite fun _ => tendsIn_care (takeBeat_care s _)
  | eventsWrite v => exact tendsIn_ite fun _ => tendsIn_care
  | registerWriteIgnored o w v => exact tendsIn_same
  | definePartition =>
    exact (tendsIn_taken (fun s r => withPartition_care (definePart_care s r)) s :
      State.TendsIn .definePartition s (execDefinePartition s))
  | freezePartition =>
    exact (tendsIn_taken (fun s _ => withPartition_care (freezePart_care s)) s :
      State.TendsIn .freezePartition s (execFreezePartition s))
  | releasePartition =>
    exact (tendsIn_taken (fun s _ => withPartition_care (releasePart_care s)) s :
      State.TendsIn .releasePartition s (execReleasePartition s))
  | clearTorn =>
    exact (tendsIn_taken (fun s _ => withPartition_care (clearTornPart_care s)) s :
      State.TendsIn .clearTorn s (execClearTorn s))
  | getPartitions =>
    exact (tendsIn_taken getPartitions_care s : State.TendsIn .getPartitions s (execGetPartitions s))
  | createChannel =>
    exact (tendsIn_taken createChannel_care s : State.TendsIn .createChannel s (execCreateChannel s))
  | deleteChannel =>
    exact (tendsIn_takeCommand tends_conclude (fun s _ => .of_care (withChannel_care (deleteChan_care s))) s :
      State.TendsIn .deleteChannel s (execDeleteChannel s))
  | pauseChannel =>
    exact (tendsIn_taken (fun s _ => withChannel_care (pauseChan_care s)) s :
      State.TendsIn .pauseChannel s (execPauseChannel s))
  | resumeChannel =>
    exact (tendsIn_taken (fun s _ => withChannel_care (resumeChan_care s)) s :
      State.TendsIn .resumeChannel s (execResumeChannel s))
  | createCq =>
    exact (tendsIn_taken createCq_care s : State.TendsIn .createCq s (execCreateCq s))
  | deleteCq =>
    exact (tendsIn_taken deleteCq_care s : State.TendsIn .deleteCq s (execDeleteCq s))
  | setRefresh => exact tendsIn_setRefresh s
  | setScrub =>
    exact (tendsIn_taken setScrub_care s : State.TendsIn .setScrub s (execSetScrub s))
  | getHealth =>
    exact (tendsIn_taken getHealth_care s : State.TendsIn .getHealth s (execGetHealth s))
  | clearErrors => exact tendsIn_clearErrors s
  | setMonitor =>
    exact (tendsIn_taken setMonitor_care s : State.TendsIn .setMonitor s (execSetMonitor s))
  | setLinkTimeout =>
    exact (tendsIn_taken setLinkTimeout_care s : State.TendsIn .setLinkTimeout s (execSetLinkTimeout s))
  | setDrain =>
    exact (tendsIn_taken setDrain_care s : State.TendsIn .setDrain s (execSetDrain s))
  | enterRetention =>
    exact (tendsIn_takeCommand (body := fun s _ => .waits (startDrain s .hostRequest)) tends_conclude
      (fun s _ => .of_care (startDrain_care s _)) s : State.TendsIn .enterRetention s (execEnterRetention s))
  | getRetentionRecord =>
    exact (tendsIn_taken getRetentionRecord_care s : State.TendsIn .getRetentionRecord s (execGetRetentionRecord s))
  | claimRetained =>
    exact (tendsIn_taken claimRetained_care s : State.TendsIn .claimRetained s (execClaimRetained s))
  | discardRetained =>
    exact (tendsIn_taken discardRetained_care s : State.TendsIn .discardRetained s (execDiscardRetained s))
  | unknownCommand =>
    exact (tendsIn_taken (fun s _ => refused_care s _) s : State.TendsIn .unknownCommand s (execUnknownCommand s))
  | slotSchedulerChoice => exact tendsIn_slotSchedulerChoice s
  | presentation k => exact tendsIn_presentation k s
  | readBurst fs => exact tendsIn_readBurst fs s
  | writeBurst => exact tendsIn_writeBurst s
  | readModifyWrite f => exact tendsIn_readModifyWrite f s
  | refresh => exact tendsIn_ite fun _ => tendsIn_next (tends_refreshServed s)
  | scrubLine fs => exact tendsIn_scrubLine fs s
  | selfRefreshEntry => exact tendsIn_ite fun h => tendsIn_next (tends_entryComplete h.2)
  | selfRefreshExit => exact tendsIn_selfRefreshExit s
  | intervalExpiry => exact tendsIn_intervalExpiry s
  | scrubTick => exact tendsIn_scrubTick s
  | delayTimerExpiry r => exact tendsIn_delayTimerExpiry r s
  | periodTimerExpiry =>
    exact tendsIn_ite fun _ => tendsIn_next ((tends_elapse s _).trans (.of_care (raiseAlert_care _ _)))
  | graceTimerExpiry =>
    exact tendsIn_ite fun _ => tendsIn_next
      ((tends_elapse s _).trans ((tends_conclude _).after (graceExpired_care _)))
  | drainDeadlineExpiry => exact tendsIn_drainDeadlineExpiry s
  | completionWrite r => exact tendsIn_completionWrite r s
  | completionDiscard src => exact tendsIn_completionDiscard src s
  | deleteConversion c => exact tendsIn_ite fun _ => tendsIn_concluded

/-- A step is time or a command, and tends the array's care. -/
theorem step_tends {s t : State} (h : step s = .next t) : ∃ i, s.Tends i t := by
  unfold step at h
  split at h
  · cases h
    exact ⟨.refresh, tends_idleTick s⟩
  · rename_i i rest _
    exact ⟨i, State.Tends.after (exec_tendsIn i { s with pending := rest } t h)⟩

/-! ### The obligations -/

/-- Settles O6: a line joins a list that has room and does not hold it, and every counter saturates. -/
theorem healthLawKept : Obligations.HealthLawKept := by
  intro s t hs h
  obtain ⟨i, ht⟩ := step_tends h
  exact ht.health hs

/-- Settles O8: the debt rises to the limit plus one and no further, and a pending limit waits until the debt allows
it. -/
theorem refreshLawKept : Obligations.RefreshLawKept := by
  intro s t hs h
  obtain ⟨i, ht⟩ := step_tends h
  exact ht.refresh hs

/-- Settles O18: counters saturate upwards in every command but POWER_ON and, for the overflow count, CLEAR_ERRORS. -/
theorem countersKeptUntilPowerOn : Obligations.CountersKeptUntilPowerOn :=
  fun i s t hs hi h => (exec_tendsIn i s t h).counters hs hi

end Sys2Proof.Machine
end

section
/-! SUPPORT. REFRESH and INTERVAL_EXPIRY (R113 to R117), and the setting commands of the admin ring (R116, R122, R126,
R140, R159, R172): the checks of each as equations of its taking. Settles O53 and O46. -/

-- One theorem at a time, as in the tests above: fewer threads than the memory limit allows.
set_option Elab.async false

namespace Sys2Proof.Machine

/-! ### REFRESH and INTERVAL_EXPIRY (R113 to R117) -/

theorem exec_refresh {s : State} (hcore : s.power.core = true) (hh : s.port.holder = .refreshEngine) :
    exec .refresh s = .next (settlePort { releasePort s with refresh := s.refresh.served }) := by
  show execRefresh s = _
  simp [execRefresh, hcore, hh]

theorem exec_intervalExpiry {s : State} {left : Nat} (hcore : s.power.core = true) (ht : s.refresh.timer = some left) :
    exec .intervalExpiry s = .next (intervalExpired (s.elapse left)) := by
  show execIntervalExpiry s = _
  simp [execIntervalExpiry, hcore, ht]

theorem raise_refresh (s : State) (c : Cause) : (s.raise c).refresh = s.refresh := (care_iff.mp (raise_care s c)).1

/-- Within the limit the debt rises (R114). -/
theorem accrue_rises {s : State} (h : s.refresh.debt ≤ s.refresh.limit) :
    accrue s = { s with refresh := { s.refresh with debt := s.refresh.debt + 1 } } :=
  if_pos (Nat.lt_succ_of_le h)

/-- Past the limit an overrun is counted and raised (R114). -/
theorem accrue_overruns {s : State} (h : s.refresh.limit < s.refresh.debt) :
    accrue s =
      { s with health := { s.health with overrun := min 65535 (s.health.overrun + 1) } }.raise .refreshOverrun :=
  if_neg (by omega)

/-- An expiry under the law of the entry request changes, beside grants, the debt or the overrun count, and restarts the
timer (R113, R114). -/
theorem intervalExpired_beside {s : State} (he : s.EntryLaw) :
    (intervalExpired s).besideGrants =
      { accrue s with refresh := (accrue s).refresh.restarted }.besideGrants := by
  refine besideGrants_settlePort ?_
  unfold accrue
  split
  · exact he
  · obtain ⟨e, q, h⟩ :=
      raise_eq { s with health := { s.health with overrun := raised 65535 1 s.health.overrun } } .refreshOverrun
    rw [h]
    exact he

/-- Settles O53: a refresh by `served_eq`, an expiry by whether the debt has passed the limit. -/
theorem refreshCounted : Obligations.RefreshCounted := by
  intro s hcore hlaw e
  refine ⟨fun hh => ⟨_, exec_refresh hcore hh, ?_⟩, fun left hleft => ?_⟩
  · rw [served_eq]
    exact besideGrants_settlePort hlaw
  · have hexec := exec_intervalExpiry hcore hleft
    have hbeside := intervalExpired_beside (s := s.elapse left) hlaw
    refine ⟨fun hle => ⟨_, hexec, ?_⟩, fun hlt => ⟨_, hexec, ?_⟩⟩
    · rw [hbeside, accrue_rises (s := s.elapse left) hle]
      rfl
    · rw [hbeside, accrue_overruns (s := s.elapse left) hlt]
      rw [raise_refresh]
      rfl

/-! ### The setting commands as taken from the admin ring (R134) -/

theorem exec_setRefresh (s : State) :
    exec .setRefresh s = takeCommand (· == 12) setRefresh settleLink s := rfl
theorem exec_setScrub (s : State) :
    exec .setScrub s = takeCommand (· == 13) setScrub settleLink s := rfl
theorem exec_clearErrors (s : State) :
    exec .clearErrors s = takeCommand (· == 15) clearErrors settleLink s := rfl
theorem exec_setMonitor (s : State) :
    exec .setMonitor s = takeCommand (· == 16) setMonitor settleLink s := rfl
theorem exec_setLinkTimeout (s : State) :
    exec .setLinkTimeout s = takeCommand (· == 17) setLinkTimeout settleLink s := rfl
theorem exec_setDrain (s : State) :
    exec .setDrain s = takeCommand (· == 18) setDrain settleLink s := rfl

section
variable {s : State} {r : Record}

/-! ### SET_REFRESH (R116) -/

theorem setRefresh_bad
    (h : (halfAt r 8).toNat < 10 ∨ 156 < (halfAt r 8).toNat ∨ 7 < (byteAt r 10).toNat) :
    setRefresh s r = .refused s .badParameter := by
  unfold setRefresh
  simp only
  split
  · rfl
  · exact if_pos (by omega)

section
variable (hlow : 10 ≤ (halfAt r 8).toNat) (hhigh : (halfAt r 8).toNat ≤ 156) (hlimit : (byteAt r 10).toNat ≤ 7)
include hlow hhigh hlimit

/-- With an interval and a limit in range, the new limit meets the debt (R116). -/
theorem setRefresh_inRange :
    setRefresh s r =
      .done
        { s with
          refresh := { s.refresh with pendingInterval := some (halfAt r 8).toNat }.withLimit (byteAt r 10).toNat } .ok
        (if s.refresh.debt - 1 ≤ (byteAt r 10).toNat then 0 else 1) := by
  unfold setRefresh
  simp only
  rw [if_neg (by omega), if_neg (by omega)]

/-- No less than the debt less one, the new limit is in force at once (R116). -/
theorem setRefresh_inForce (hd : s.refresh.debt ≤ (byteAt r 10).toNat + 1) :
    setRefresh s r =
      .done
        { s with
          refresh :=
            { s.refresh with
              pendingInterval := some (halfAt r 8).toNat, limit := (byteAt r 10).toNat, pendingLimit := none } }
        .ok 0 := by
  have hle : s.refresh.debt - 1 ≤ (byteAt r 10).toNat := by omega
  rw [setRefresh_inRange hlow hhigh hlimit, RefreshEngine.withLimit, if_pos hle, if_pos hle]

/-- Less than that, the new limit is pending (R116). -/
theorem setRefresh_pending (hd : (byteAt r 10).toNat + 1 < s.refresh.debt) :
    setRefresh s r =
      .done
        { s with
          refresh :=
            { s.refresh with
              pendingInterval := some (halfAt r 8).toNat, pendingLimit := some (byteAt r 10).toNat } }
        .ok 1 := by
  have hgt : ¬s.refresh.debt - 1 ≤ (byteAt r 10).toNat := by omega
  rw [setRefresh_inRange hlow hhigh hlimit, RefreshEngine.withLimit, if_neg hgt, if_neg hgt]

end

/-! ### SET_SCRUB (R122) -/

theorem setScrub_bad (h : 65535 < (wordAt r 8).toNat) : setScrub s r = .refused s .badParameter := if_pos h

theorem setScrub_inRange (h : (wordAt r 8).toNat ≤ 65535) :
    setScrub s r = .done { s with scrub := s.scrub.withPeriod s.scrubRuns (wordAt r 8).toNat } .ok 0 :=
  if_neg (not_lt.mpr h)

theorem withPeriod_off (u : ScrubUnit) (runs : Bool) :
    u.withPeriod runs 0 = { u with period := 0, timer := none, request := false } := rfl

/-- A period that was off starts scrubbing where it runs (R120, R122). -/
theorem withPeriod_starts {u : ScrubUnit} {period : Nat} (hp : 1 ≤ period) (h : u.period = 0) :
    u.withPeriod true period = { u with period := period, timer := some (period * 10), request := false } := by
  rw [ScrubUnit.withPeriod, if_neg (by omega), if_pos h]
  rfl

/-- A period that was on is replaced, and a running timer starts anew (R122). -/
theorem withPeriod_changes {u : ScrubUnit} (runs : Bool) {period : Nat} (hp : 1 ≤ period) (h : u.period ≠ 0) :
    u.withPeriod runs period =
      { u with period := period, timer := if u.timer.isSome = true then some (period * 10) else none } := by
  rw [ScrubUnit.withPeriod, if_neg (by omega), if_neg h]
  cases u.timer <;> rfl

/-! ### SET_MONITOR (R140) -/

/-- The fields of SET_MONITOR are out of range: the period code, or the window or the grace of a period that is on
(R140). -/
def MonitorFieldsBad (r : Record) : Prop :=
  (15 < (byteAt r 8).toNat ∧ (byteAt r 8).toNat ≠ 255) ∨
    ((byteAt r 8).toNat ≤ 15 ∧ (7 < (byteAt r 9).toNat ∨ (halfAt r 10).toNat = 0 ∨ 1000 < (halfAt r 10).toNat))

theorem setMonitor_bad (h : MonitorFieldsBad r) : setMonitor s r = .refused s .badParameter := by
  unfold MonitorFieldsBad at h
  unfold setMonitor
  simp only
  split
  · rfl
  · exact if_pos (by omega)

section
variable (h : ¬MonitorFieldsBad r)
include h

/-- With fields in range, the state of the monitor and the period code decide (R140). -/
theorem setMonitor_inRange :
    setMonitor s r =
      if s.monitor.state = .alert then .refused s .wrongState
      else if (byteAt r 8).toNat = 255 then
        .done { s with monitor := s.monitor.turnedOff } .ok (s.monitor.beat.setWidth 32)
      else
        .done
          { s with
            monitor := s.monitor.rearmed (byteAt r 8).toNat (byteAt r 9).toNat (halfAt r 10).toNat } .ok
          (s.monitor.beat.setWidth 32) := by
  unfold MonitorFieldsBad at h
  unfold setMonitor
  simp only
  rw [if_neg (by omega), if_neg (by omega)]

theorem setMonitor_alert (ha : s.monitor.state = .alert) : setMonitor s r = .refused s .wrongState := by
  rw [setMonitor_inRange h, if_pos ha]

theorem setMonitor_rearms (ha : s.monitor.state ≠ .alert) (hcode : (byteAt r 8).toNat ≤ 15) :
    setMonitor s r =
      .done
        { s with
          monitor := s.monitor.rearmed (byteAt r 8).toNat (byteAt r 9).toNat (halfAt r 10).toNat } .ok
        (s.monitor.beat.setWidth 32) := by
  rw [setMonitor_inRange h, if_neg ha, if_neg (by omega)]

theorem setMonitor_turnsOff (ha : s.monitor.state ≠ .alert) (hcode : (byteAt r 8).toNat = 255) :
    setMonitor s r =
      .done { s with monitor := s.monitor.turnedOff } .ok (s.monitor.beat.setWidth 32) := by
  rw [setMonitor_inRange h, if_neg ha, if_pos hcode]

end

theorem turnedOff_armed {m : Monitor} (h : m.state = .armed) :
    m.turnedOff = { m with periodCode := none, state := .disarmed, elapsed := none } := if_pos h

theorem turnedOff_disarmed {m : Monitor} (h : m.state = .disarmed) : m.turnedOff = { m with periodCode := none } :=
  if_neg (by simp [h])

/-! ### SET_LINK_TIMEOUT and SET_DRAIN (R159, R172) -/

theorem setLinkTimeout_bad (h : (halfAt r 8).toNat = 0 ∨ 255 < (halfAt r 8).toNat) :
    setLinkTimeout s r = .refused s .badParameter := if_pos (by omega)

theorem setLinkTimeout_inRange (hlow : 1 ≤ (halfAt r 8).toNat) (hhigh : (halfAt r 8).toNat ≤ 255) :
    setLinkTimeout s r = .done { s with link := { s.link with timeoutMs := (halfAt r 8).toNat } } .ok 0 :=
  if_neg (by omega)

theorem setDrain_bad (h : (halfAt r 8).toNat = 0 ∨ 255 < (halfAt r 8).toNat) :
    setDrain s r = .refused s .badParameter := if_pos (by omega)

theorem setDrain_inRange (hlow : 1 ≤ (halfAt r 8).toNat) (hhigh : (halfAt r 8).toNat ≤ 255) :
    setDrain s r = .done { s with ctl := { s.ctl with deadlineMs := (halfAt r 8).toNat } } .ok 0 :=
  if_neg (by omega)

end

/-! ### The obligation -/

/-- In ACTIVE with the array READY scrubbing runs (R120). -/
theorem scrubRuns_active {s : State} (ho : s.ctl.op = .active) (hm : s.memState = .ready) : s.scrubRuns = true :=
  (scrubRuns_iff hm).mpr (.inr (.inl ho))

/-- SET_SCRUB with a period in range, by what it makes of the Scrub Unit (R122). -/
theorem setScrub_completes {s : State} {f : Fetched} {rest : List Fetched} {u : ScrubUnit} (ht : Takes s f rest 13)
    (hp : (wordAt f.entry 8).toNat ≤ 65535) (hu : s.scrub.withPeriod s.scrubRuns (wordAt f.entry 8).toNat = u) :
    Completes .setScrub s f rest .ok 0 { s with scrub := u } := by
  subst hu
  exact completes_of_done (exec_setScrub s) ht rfl (setScrub_inRange (s := beginCommand s f rest) hp)

/-- SET_MONITOR that turns the period off, by what it makes of the monitor (R140). -/
theorem setMonitor_off_completes {s : State} {f : Fetched} {rest : List Fetched} {m : Monitor}
    (ht : Takes s f rest 16) (hb : ¬MonitorFieldsBad f.entry) (ha : s.monitor.state ≠ .alert)
    (hcode : (byteAt f.entry 8).toNat = 255) (hm : s.monitor.turnedOff = m) :
    Completes .setMonitor s f rest .ok (s.monitor.beat.setWidth 32) { s with monitor := m } := by
  subst hm
  exact completes_of_done (exec_setMonitor s) ht rfl (setMonitor_turnsOff (s := beginCommand s f rest) hb ha hcode)

/-- Settles O46: each command by its range check, then by what the values in range make of its block. -/
theorem settingsTaken : Obligations.SettingsTaken := by
  intro s f rest interval limit e period ms u
  refine ⟨fun ht => ⟨fun h => ?_, fun hlow hhigh hlimit => ⟨fun hd => ?_, fun hd => ?_⟩⟩,
    fun ht => ⟨fun h => ?_, fun h0 => ?_, fun hlow hhigh => ⟨fun hu hm => ?_, fun hu => ?_⟩⟩,
    fun ht => ⟨fun h => ?_, fun hlow hhigh => ?_⟩, fun ht => ⟨fun h => ?_, fun hlow hhigh => ?_⟩, fun ht => ?_,
    fun ht => ⟨fun h => ?_, fun h => ⟨fun ha => ?_, fun ha hcode => ?_, fun ha hcode => ?_, fun ha hcode => ?_⟩⟩⟩
  · exact completes_of_refused (exec_setRefresh s) ht rfl (setRefresh_bad h)
  · exact completes_of_done (exec_setRefresh s) ht rfl
      (setRefresh_inForce (s := beginCommand s f rest) hlow hhigh hlimit hd)
  · exact completes_of_done (exec_setRefresh s) ht rfl
      (setRefresh_pending (s := beginCommand s f rest) hlow hhigh hlimit hd)
  · exact completes_of_refused (exec_setScrub s) ht rfl (setScrub_bad h)
  · exact setScrub_completes ht (h0.le.trans (Nat.zero_le _)) ((congrArg _ h0).trans (withPeriod_off _ _))
  · obtain ⟨-, hactive, -⟩ := id ht
    exact setScrub_completes ht hhigh (by rw [scrubRuns_active hactive hm]; exact withPeriod_starts hlow hu)
  · exact setScrub_completes ht hhigh (withPeriod_changes _ hlow hu)
  · exact completes_of_refused (exec_setLinkTimeout s) ht rfl (setLinkTimeout_bad h)
  · exact completes_of_done (exec_setLinkTimeout s) ht rfl
      (setLinkTimeout_inRange (s := beginCommand s f rest) hlow hhigh)
  · exact completes_of_refused (exec_setDrain s) ht rfl (setDrain_bad h)
  · exact completes_of_done (exec_setDrain s) ht rfl (setDrain_inRange (s := beginCommand s f rest) hlow hhigh)
  · exact completes_of_done (exec_clearErrors s) ht rfl rfl
  · exact completes_of_refused (exec_setMonitor s) ht rfl (setMonitor_bad h)
  · exact completes_of_refused (exec_setMonitor s) ht rfl (setMonitor_alert (s := beginCommand s f rest) h ha)
  · exact completes_of_done (exec_setMonitor s) ht rfl
      (setMonitor_rearms (s := beginCommand s f rest) h ha hcode)
  · exact setMonitor_off_completes ht h (by simp [ha]) hcode (turnedOff_armed ha)
  · exact setMonitor_off_completes ht h (by simp [ha]) hcode (turnedOff_disarmed ha)

end Sys2Proof.Machine
end

section
/-! SUPPORT. Writes of ADMIN_RING as reads of the register window show them, the configuration write and the writes that
no register takes (R128, R167, R175). Settles O32. -/

-- One theorem at a time, as in the tests above: fewer threads than the memory limit allows.
set_option Elab.async false

namespace Sys2Proof.Machine

/-! ### Reads of the register window (R175) -/

/-- Two states with the same word read the same there. -/
theorem readWindow_eight_congr {s t : State} {q : Nat} (h : q % 8 = 0 → windowWord t (q / 8) = windowWord s (q / 8)) :
    readWindow t q 8 = readWindow s q 8 := by
  by_cases hq : q % 8 = 0
  · simp [readWindow, h hq]
  · simp [readWindow, hq]

/-- The word of the window in which a field of ADMIN_RING stands (R175). -/
def fieldWord : AdminRingField → Nat
  | .submissionBase => 4
  | .completionBase => 5
  | .size => 6

/-- The eight bytes that a field of ADMIN_RING reads as. -/
def AdminRingRegister.value (reg : AdminRingRegister) : AdminRingField → BitVec 64
  | .submissionBase => reg.submissionBase
  | .completionBase => reg.completionBase
  | .size => reg.size.setWidth 64

theorem fieldWord_range (f : AdminRingField) : 4 ≤ fieldWord f ∧ fieldWord f ≤ 6 := by
  cases f <;> exact ⟨by decide, by decide⟩

theorem windowWord_field (s : State) (f : AdminRingField) : windowWord s (fieldWord f) = s.adminRing.value f := by
  cases f <;> rfl

section
variable (s : State) (f : AdminRingField)

theorem readWindow_field : readWindow s (8 * fieldWord f) 8 = s.adminRing.value f := by
  obtain ⟨hlow, hhigh⟩ := fieldWord_range f
  have hwindow : readWindow s (8 * fieldWord f) 8 = windowWord s (8 * fieldWord f / 8) :=
    if_pos ⟨rfl, by omega, by omega, by omega⟩
  rw [hwindow, Nat.mul_div_cancel_left _ (by decide), windowWord_field]

theorem readWindow_field_low :
    readWindow s (8 * fieldWord f) 4 = ((s.adminRing.value f).extractLsb' 0 32).setWidth 64 := by
  simp [readWindow, windowWord_field]

theorem readWindow_field_high :
    readWindow s (8 * fieldWord f + 4) 4 = ((s.adminRing.value f).extractLsb' 32 32).setWidth 64 := by
  have hmod : (8 * fieldWord f + 4) % 8 = 4 := by omega
  have hdiv : (8 * fieldWord f + 4) / 8 = fieldWord f := by omega
  simp [readWindow, hmod, hdiv, windowWord_field]

end

/-! ### A written value (R175) -/

section
variable (old value : BitVec 64)

theorem mergePart_low_bits :
    (mergePart old .low value).extractLsb' 0 32 = value.extractLsb' 0 32 ∧
      (mergePart old .low value).extractLsb' 32 32 = old.extractLsb' 32 32 :=
  ⟨BitVec.extractLsb'_append_eq_right, BitVec.extractLsb'_append_eq_left⟩

theorem mergePart_high_bits :
    (mergePart old .high value).extractLsb' 32 32 = value.extractLsb' 0 32 ∧
      (mergePart old .high value).extractLsb' 0 32 = old.extractLsb' 0 32 :=
  ⟨BitVec.extractLsb'_append_eq_left, BitVec.extractLsb'_append_eq_right⟩

theorem setWidth_of_low_bits (x : BitVec 64) : x.setWidth 16 = (x.extractLsb' 0 32).setWidth 16 := by
  ext i hi
  simp [show i < 32 by omega]

theorem mergePart_low_sixteen : (mergePart old .low value).setWidth 16 = value.setWidth 16 := by
  rw [setWidth_of_low_bits, (mergePart_low_bits old value).1, ← setWidth_of_low_bits]

theorem mergePart_high_sixteen : (mergePart old .high value).setWidth 16 = old.setWidth 16 := by
  rw [setWidth_of_low_bits, (mergePart_high_bits old value).2, ← setWidth_of_low_bits]

end

/-! ### ADMIN_RING written (R128) -/

/-- The state with a field of ADMIN_RING written. -/
def State.ringWritten (s : State) (f : AdminRingField) (part : AccessPart) (v : BitVec 64) : State :=
  { s with adminRing := s.adminRing.after f part v }

theorem value_after_base {f : AdminRingField} (reg : AdminRingRegister) (part : AccessPart) (v : BitVec 64)
    (h : f ≠ .size) : (reg.after f part v).value f = mergePart (reg.value f) part v := by
  cases f with
  | submissionBase => rfl
  | completionBase => rfl
  | size => exact absurd rfl h

theorem value_after_size (reg : AdminRingRegister) (part : AccessPart) (v : BitVec 64) :
    (reg.after .size part v).value .size = ((mergePart (reg.size.setWidth 64) part v).setWidth 16).setWidth 64 := rfl

/-- A write to the upper half of the size leaves the register: bits 0 to 15 alone are held (R175). -/
theorem after_size_high (reg : AdminRingRegister) (v : BitVec 64) : reg.after .size .high v = reg := by
  have hsize : (reg.size.setWidth 64).setWidth 16 = reg.size := by simp
  simp only [AdminRingRegister.after, mergePart_high_sixteen, hsize]

theorem value_after_ne {f g : AdminRingField} (reg : AdminRingRegister) (part : AccessPart) (v : BitVec 64)
    (h : g ≠ f) : (reg.after f part v).value g = reg.value g := by
  cases f with
  | submissionBase =>
    cases g with
    | submissionBase => exact absurd rfl h
    | completionBase | size => rfl
  | completionBase =>
    cases g with
    | completionBase => exact absurd rfl h
    | submissionBase | size => rfl
  | size =>
    cases g with
    | size => exact absurd rfl h
    | submissionBase | completionBase => rfl

/-- A write of one field leaves every other word of the window. -/
theorem windowWord_ringWritten_ne {f : AdminRingField} {i : Nat} (s : State) (part : AccessPart) (v : BitVec 64)
    (h : i ≠ fieldWord f) : windowWord (s.ringWritten f part v) i = windowWord s i := by
  by_cases hi : ∃ g : AdminRingField, i = fieldWord g
  · obtain ⟨g, rfl⟩ := hi
    rw [windowWord_field, windowWord_field]
    exact value_after_ne _ part v fun e => h (congrArg fieldWord e)
  · unfold windowWord
    split
    case h_4 => exact absurd ⟨.submissionBase, rfl⟩ hi
    case h_5 => exact absurd ⟨.completionBase, rfl⟩ hi
    case h_6 => exact absurd ⟨.size, rfl⟩ hi
    all_goals rfl

/-! ### The writes -/

theorem adminRingWritable_iff {s : State} :
    adminRingWritable s = true ↔ s.ctl.op = .standby ∨ (s.ctl.op = .retained ∧ s.memState ≠ .exiting) := by
  simp [adminRingWritable]

theorem exec_adminRingWrite_taken {s : State} (hcore : s.power.core = true) (hup : s.link.up = true)
    (hs : s.ctl.op = .standby ∨ (s.ctl.op = .retained ∧ s.memState ≠ .exiting)) (f : AdminRingField)
    (part : AccessPart) (v : BitVec 64) : exec (.adminRingWrite f part v) s = .next (s.ringWritten f part v) :=
  congrArg Host.Outcome.next (if_pos ⟨by simp [State.reached, hcore, hup], adminRingWritable_iff.mpr hs⟩)

theorem exec_adminRingWrite_refused {s : State} (hs : s.ctl.op ≠ .standby)
    (hr : s.ctl.op ≠ .retained ∨ s.memState = .exiting) (f : AdminRingField) (part : AccessPart) (v : BitVec 64) :
    exec (.adminRingWrite f part v) s = .next s := by
  refine congrArg Host.Outcome.next (if_neg fun ⟨_, hw⟩ => ?_)
  obtain hop | ⟨hop, hmem⟩ := adminRingWritable_iff.mp hw
  · exact hs hop
  · exact hr.elim (fun h => h hop) hmem

theorem exec_messageEnable {s : State} (hcore : s.power.core = true) (hup : s.link.up = true) (enabled : Bool)
    (granted : VectorsGranted) :
    exec (.messageEnable enabled granted) s =
      .next { s with link := { s.link with messageEnable := enabled, vectors := granted } } :=
  congrArg Host.Outcome.next (if_pos (by simp [State.reached, hcore, hup]))

/-- Settles O32: the written field as its word of the window reads, by the part of it that the access covers. -/
theorem registerWrites : Obligations.RegisterWrites := by
  intro s v offset width
  refine ⟨fun hcore hup hs field part => ?_, fun hs hr => exec_adminRingWrite_refused hs hr (v := v),
    exec_messageEnable, rfl⟩
  intro o
  have ho : o = 8 * fieldWord field := by cases field <;> rfl
  have hring : (s.ringWritten field part v).adminRing = s.adminRing.after field part v := rfl
  refine ⟨s.ringWritten field part v, exec_adminRingWrite_taken hcore hup hs field part v, rfl, ?_⟩
  rw [ho]
  refine ⟨fun q _ hq _ _ => readWindow_eight_congr fun h0 => windowWord_ringWritten_ne s part v (by omega), ?_, ?_, ?_,
    ?_, ?_, ?_⟩
  · rintro rfl hf
    rw [readWindow_field, hring, value_after_base _ _ _ hf]
    rfl
  · rintro rfl rfl
    rw [readWindow_field, hring, value_after_size]
    rfl
  · rintro rfl hf
    rw [readWindow_field_low, readWindow_field_high, readWindow_field_high, hring, value_after_base _ _ _ hf,
      (mergePart_low_bits _ v).1, (mergePart_low_bits _ v).2]
    exact ⟨rfl, rfl⟩
  · rintro rfl hf
    rw [readWindow_field_low, readWindow_field_low, readWindow_field_high, hring, value_after_base _ _ _ hf,
      (mergePart_high_bits _ v).1, (mergePart_high_bits _ v).2]
    exact ⟨rfl, rfl⟩
  · rintro rfl rfl
    rw [readWindow_field, hring, value_after_size, mergePart_low_sixteen]
    rfl
  · rintro rfl rfl
    rw [State.ringWritten, after_size_high]

end Sys2Proof.Machine
end

section
/-! SUPPORT. The command in execution while reads fail, slots end and a drain goes on (R16, R137, R156, R160); and the
channels that failing reads leave (R24). -/

-- One theorem at a time, as in the tests above: fewer threads than the memory limit allows.
set_option Elab.async false

namespace Sys2Proof.Machine

/-! ### The command in execution while reads fail (R16, R133) -/

theorem State.Keeps.free {s t : State} (h : s.Keeps t) {i : Fin 16} (hi : (s.part i).state = .free) :
    (t.part i).state = .free := by
  obtain ⟨-, hcleared | ⟨hfree, -⟩⟩ := h.parts i
  · exact hcleared.1
  · exact hfree.mpr hi

/-- The command in execution and its completion stay, or a RELEASE_PARTITION that waited completes with OK, its entry
FREE (R16). -/
structure State.CommandGoes (s t : State) : Prop where
  keeps : s.Keeps t
  admin :
    (t.admin.command = s.admin.command ∧ t.admin.handover = s.admin.handover) ∨
      ∃ p i, s.admin.command = some p ∧ p.wait = .references i ∧ (t.part i).state = .free ∧
        t.admin.command = some { p with wait := .none } ∧ t.admin.handover = some (adminCompletion p .ok 0)

namespace State.CommandGoes

theorem of_admin {s t : State} (h : s.Keeps t) (ha : t.admin = s.admin := by rfl) : s.CommandGoes t :=
  ⟨h, .inl ⟨by rw [ha], by rw [ha]⟩⟩

theorem refl (s : State) : s.CommandGoes s := .of_admin (.refl s)

theorem trans {s t u : State} (h : s.CommandGoes t) (h' : t.CommandGoes u) : s.CommandGoes u := by
  refine ⟨h.keeps.trans h'.keeps, ?_⟩
  obtain ⟨hc, hh⟩ | ⟨p, i, hp, hw, hf, hc, hh⟩ := h.admin
  · rw [← hc, ← hh]
    exact h'.admin
  · obtain ⟨hc', hh'⟩ | ⟨q, j, hq, hwait, -⟩ := h'.admin
    · exact .inr ⟨p, i, hp, hw, h'.keeps.free hf, hc'.trans hc, hh'.trans hh⟩
    · obtain rfl : { p with wait := AdminWait.none } = q := Option.some.inj (hc.symm.trans hq)
      cases hwait

end State.CommandGoes

theorem commandGoes_releaseRefs (s : State) (sl : Slot) (w torn : Bool) : s.CommandGoes (releaseRefs s sl w torn) := by
  by_cases hn : sl.refs = .none ∨ s.admin.awaitsNone
  · refine .of_admin (keeps_releaseRefs s sl w torn) ?_
    obtain hr | ha := hn
    · rw [releaseRefs_none hr]
    · exact releaseRefs_admin_of_awaitsNone ha sl w torn
  · obtain ⟨hr, ha⟩ := not_or.mp hn
    simp only [Admin.awaitsNone, not_forall, ne_eq, not_not] at ha
    obtain ⟨p, hp, i, hw⟩ := ha
    have hadmin := releaseRefs_admin w torn hr hp hw
    by_cases hf : s.frees sl i
    · rw [if_pos hf] at hadmin
      refine ⟨keeps_releaseRefs s sl w torn, .inr ⟨p, i, hp, hw, ?_, by rw [hadmin]; rfl, by rw [hadmin]; rfl⟩⟩
      rw [releaseRefs_part s w torn hr, if_pos hf]
      rfl
    · rw [if_neg hf] at hadmin
      exact .of_admin (keeps_releaseRefs s sl w torn) hadmin

theorem commandGoes_endSlot (s : State) (k : Fin 4) (st : Status) : s.CommandGoes (endSlot s k st) := by
  have h := commandGoes_releaseRefs s (s.slot k) (s.slot k).writes (tearsPartition (s.slot k) st)
  refine ⟨keeps_endSlot s k st, ?_⟩
  rw [endSlot_frame]
  exact h.admin

theorem commandGoes_leaveRun (s : State) (k : Fin 4) (sl : Slot) : s.CommandGoes (leaveRun s k sl) := by
  obtain ⟨y, -, -, e | e⟩ := leaveRun_cases s k sl
  · rw [e]
    exact .of_admin .untouched
  · rw [e]
    exact State.CommandGoes.trans (.of_admin .untouched) (commandGoes_endSlot _ k _)

theorem Admin.failed_command (a : Admin) : a.failed.command = a.command ∧ a.failed.handover = a.handover := by
  unfold Admin.failed
  split <;> exact ⟨rfl, rfl⟩

theorem raise_admin (s : State) (c : Cause) : (s.raise c).admin = s.admin := by
  obtain ⟨e, q, h⟩ := raise_eq s c
  rw [h]

theorem commandGoes_adminFetchFailed (s : State) : s.CommandGoes (adminFetchFailed s) := by
  refine ⟨keeps_adminFetchFailed s, .inl ?_⟩
  unfold adminFetchFailed
  split
  · split
    · rw [raise_admin]
      exact Admin.failed_command s.admin
    · exact ⟨rfl, rfl⟩
  all_goals exact ⟨rfl, rfl⟩

theorem channelFetchFailed_admin (s : State) (c : Fin 16) : (channelFetchFailed s c).admin = s.admin := by
  obtain ⟨cs, fs, e, q, h⟩ := channelFetchFailed_eq s c
  rw [h]

theorem commandGoes_readFailed (s : State) (x : Tag) : s.CommandGoes (readFailed s x) := by
  unfold readFailed
  split
  · exact .refl s
  · split
    · exact .refl s
    · unfold slotReadFailed
      simp only
      split
      · exact commandGoes_leaveRun s _ _
      · exact .refl s
  · exact commandGoes_adminFetchFailed s
  · exact .of_admin (keeps_channelFetchFailed s _) (channelFetchFailed_admin s _)

theorem commandGoes_failTag (s : State) (g : Fin 16) : s.CommandGoes (failTag s g) := by
  have hfreed : s.CommandGoes (s.setTag g Tag.none) := .of_admin (keeps_setTag s g _)
  obtain e | e := failTag_cases s g
  · rw [e]
    exact hfreed.trans (commandGoes_readFailed _ _)
  · rw [e]
    exact hfreed

theorem commandGoes_failAllTags (s : State) : s.CommandGoes (failAllTags s) :=
  List.foldlRecOn (motive := s.CommandGoes) allTags failTag (.refl s) fun u hu g _ => hu.trans (commandGoes_failTag u g)

/-! ### Channels while reads fail: none goes or comes, and every head stays (R24, R31) -/

/-- The channel is ABSENT exactly if it was, and its head stays. -/
def Channel.Stands (x y : Channel) : Prop := (y.state = .absent ↔ x.state = .absent) ∧ y.head = x.head

theorem Channel.Stands.refl (x : Channel) : x.Stands x := ⟨.rfl, rfl⟩

theorem Channel.Stands.trans {x y z : Channel} (h : x.Stands y) (h' : y.Stands z) : x.Stands z :=
  ⟨h'.1.trans h.1, h'.2.trans h.2⟩

/-- A channel that a failure halts was RUNNING or PAUSED (R30, R38). -/
theorem Channel.stands_halted {x : Channel} (h : x.state = .running ∨ x.state = .paused) :
    x.Stands { x with state := .halted } := by
  refine ⟨⟨ChannelState.noConfusion, fun e => ?_⟩, rfl⟩
  rw [e] at h
  exact h.elim ChannelState.noConfusion ChannelState.noConfusion

theorem endedIn_stands (x : Channel) (sl : Slot) (st : Status) : x.Stands (x.endedIn sl st) := by
  refine ⟨?_, rfl⟩
  show (if x.stopOnError = true ∧ st.harmless = false ∧ (x.state = .running ∨ x.state = .paused) then
    ChannelState.halted else x.state) = .absent ↔ x.state = .absent
  split
  · rename_i h
    exact (Channel.stands_halted h.2.2).1
  · exact .rfl

/-- Every channel is ABSENT exactly if it was, and keeps its head. -/
def State.ChannelsStand (s t : State) : Prop := ∀ d, (s.chan d).Stands (t.chan d)

theorem State.ChannelsStand.of_channels {s t : State} (h : t.channels = s.channels := by rfl) : s.ChannelsStand t :=
  fun d => by
    rw [show t.chan d = s.chan d from congrArg (fun v => Vector.get v d) h]
    exact .refl _

theorem State.ChannelsStand.trans {s t u : State} (h : s.ChannelsStand t) (h' : t.ChannelsStand u) :
    s.ChannelsStand u := fun d => (h d).trans (h' d)

theorem channelsStand_endSlot (s : State) (k : Fin 4) (st : Status) : s.ChannelsStand (endSlot s k st) := fun d => by
  rw [endSlot_chan]
  split
  · rename_i h
    rw [h.2]
    exact endedIn_stands _ _ _
  · exact .refl _

theorem channelsStand_leaveRun (s : State) (k : Fin 4) (sl : Slot) : s.ChannelsStand (leaveRun s k sl) := by
  obtain ⟨y, -, -, e | e⟩ := leaveRun_cases s k sl
  · rw [e]
    exact .of_channels
  · rw [e]
    exact State.ChannelsStand.trans .of_channels (channelsStand_endSlot _ k _)

theorem channelsStand_channelFetchFailed (s : State) (c : Fin 16) : s.ChannelsStand (channelFetchFailed s c) := by
  unfold channelFetchFailed
  split
  · split
    · intro d
      rw [raise_chan, State.setFetch_chan, State.setChan_chan]
      split
      · rename_i hd
        rw [hd]
        split
        · exact Channel.stands_halted ‹_›
        · exact .refl _
      · exact .refl _
    · exact .of_channels
  all_goals exact .of_channels

theorem channelsStand_readFailed (s : State) (x : Tag) : s.ChannelsStand (readFailed s x) := by
  unfold readFailed
  split
  · exact .of_channels
  · split
    · exact .of_channels
    · unfold slotReadFailed
      simp only
      split
      · exact channelsStand_leaveRun s _ _
      · exact .of_channels
  · obtain ⟨a, f, e, q, h⟩ := adminFetchFailed_eq s
    rw [h]
    exact .of_channels
  · exact channelsStand_channelFetchFailed s _

theorem channelsStand_failTag (s : State) (g : Fin 16) : s.ChannelsStand (failTag s g) := by
  obtain e | e := failTag_cases s g
  · rw [e]
    exact State.ChannelsStand.trans .of_channels (channelsStand_readFailed _ _)
  · rw [e]
    exact .of_channels

theorem channelsStand_failAllTags (s : State) : s.ChannelsStand (failAllTags s) :=
  List.foldlRecOn (motive := s.ChannelsStand) allTags failTag .of_channels
    fun u hu g _ => hu.trans (channelsStand_failTag u g)

/-! ### What a drain holds of the stopped command (R137, R156, R160) -/

/-- No completion is handed over, and the command in execution waits for no entry. -/
def Admin.AtRest (a : Admin) : Prop := a.handover = Option.none ∧ a.awaitsNone

theorem Admin.stopped_atRest (a : Admin) : a.stopped.AtRest := by
  refine ⟨rfl, fun c hc i => ?_⟩
  obtain ⟨p, -, rfl⟩ := Option.map_eq_some_iff.mp hc
  exact AdminWait.noConfusion

theorem Admin.atRest_of_idle {a : Admin} (hh : a.handover = Option.none) (hc : a.command = Option.none) : a.AtRest :=
  ⟨hh, fun p hp => by rw [hc] at hp; cases hp⟩

/-- A drain goes on: the tag of the stopped command stays in the working record, the drain's admin completion stands
until SETTLE, and nothing is handed over. -/
structure State.HoldsAdmin (s t : State) : Prop where
  tag  : t.ctl.working.adminTag = s.ctl.working.adminTag
  done : t.ctl.phase ≠ .settle → s.ctl.phase ≠ .settle ∧ t.ctl.adminDone = s.ctl.adminDone
  rest : s.admin.AtRest → t.admin.AtRest

namespace State.HoldsAdmin

theorem refl (s : State) : s.HoldsAdmin s := ⟨rfl, fun h => ⟨h, rfl⟩, id⟩

theorem trans {s t u : State} (h : s.HoldsAdmin t) (h' : t.HoldsAdmin u) : s.HoldsAdmin u where
  tag := h'.tag.trans h.tag
  done hu :=
    have ⟨ht, hdone⟩ := h'.done hu
    ⟨(h.done ht).1, hdone.trans (h.done ht).2⟩
  rest ha := h'.rest (h.rest ha)

end State.HoldsAdmin

theorem Controller.noted_eq (c : Controller) (sl : Slot) (st : Status) :
    ∃ es, c.noted sl st = { c with working := { c.working with channels := es } } := by
  unfold Controller.noted
  split <;> exact ⟨_, rfl⟩

theorem holdsAdmin_endSlot (s : State) (k : Fin 4) (st : Status) : s.HoldsAdmin (endSlot s k st) := by
  have hadmin : s.admin.AtRest → (endSlot s k st).admin = s.admin := fun ha => by
    rw [endSlot_frame]
    exact releaseRefs_admin_of_awaitsNone ha.2 _ _ _
  obtain ⟨es, hctl⟩ : ∃ es, (endSlot s k st).ctl = { s.ctl with working := { s.ctl.working with channels := es } } := by
    rw [endSlot_frame]
    show ∃ es, (if (s.slot k).stop = .silent then s.ctl else s.ctl.noted (s.slot k) st) = _
    split
    · exact ⟨_, rfl⟩
    · exact Controller.noted_eq _ _ _
  refine ⟨by rw [hctl], fun h => ?_, fun ha => by rwa [hadmin ha]⟩
  rw [hctl] at h ⊢
  exact ⟨h, rfl⟩

theorem holdsAdmin_leaveRun (s : State) (k : Fin 4) (sl : Slot) : s.HoldsAdmin (leaveRun s k sl) := by
  obtain ⟨y, -, -, e | e⟩ := leaveRun_cases s k sl
  · rw [e]
    exact ⟨rfl, fun h => ⟨h, rfl⟩, id⟩
  · rw [e]
    obtain ⟨htag, hdone, hrest⟩ := holdsAdmin_endSlot ((orphanReads s k).setSlot k y) k sl.status
    exact ⟨htag, hdone, hrest⟩

theorem holdsAdmin_stopSlot (s : State) (k : Fin 4) (q : StopRequest) : s.HoldsAdmin (stopSlot s k q) := by
  cases h : (s.slot k).state with
  | idle =>
    rw [stopSlot_idle q h]
    exact .refl s
  | check =>
    rw [stopSlot_check q h]
    generalize Slot.status _ = st
    obtain ⟨htag, hdone, hrest⟩ := holdsAdmin_endSlot (s.setSlot k _) k st
    exact ⟨htag, hdone, hrest⟩
  | run =>
    rw [stopSlot_run q h]
    exact holdsAdmin_leaveRun s k _
  | ending =>
    rw [stopSlot_ending q h]
    exact ⟨rfl, fun h => ⟨h, rfl⟩, id⟩

theorem holdsAdmin_stopAllSlots (s : State) (q : StopRequest) : s.HoldsAdmin (stopAllSlots s q) :=
  List.foldlRecOn (motive := s.HoldsAdmin) allSlots _ (.refl s) fun u hu k _ => hu.trans (holdsAdmin_stopSlot u k q)

theorem holdsAdmin_beginSettle (s : State) : s.HoldsAdmin (beginSettle s) := by
  have hctl : (signalAll s).ctl = s.ctl := (congrArg State.ctl (signalAll_frame s) :)
  unfold beginSettle
  generalize signalAll s = v at hctl
  exact ⟨by rw [← hctl], fun h => absurd rfl h, fun _ => Admin.atRest_of_idle rfl rfl⟩

theorem holdsAdmin_endFlush (s : State) (o : FlushOutcome) : s.HoldsAdmin (endFlush s o) :=
  have houtcome : s.HoldsAdmin (s.withOutcome o) := ⟨rfl, fun h => ⟨h, rfl⟩, id⟩
  houtcome.trans (holdsAdmin_beginSettle (s.withOutcome o))

theorem holdsAdmin_endStop {s : State} (hp : s.ctl.phase = .stop) : s.HoldsAdmin (endStop s) := by
  unfold endStop
  split
  · split
    · exact holdsAdmin_endFlush s _
    · exact ⟨rfl, fun _ => ⟨by rw [hp]; exact DrainPhase.noConfusion, rfl⟩, id⟩
  · exact holdsAdmin_beginSettle s

theorem holdsAdmin_stopStep (s : State) : s.HoldsAdmin (stopStep s) := by
  have hall : s.HoldsAdmin s.allStopped := ⟨rfl, fun h => ⟨h, rfl⟩, id⟩
  by_cases h : s.ctl.op = .draining ∧ s.ctl.phase = .stop
  · rw [stopStep_on h.1 h.2]
    split
    · exact hall.trans (holdsAdmin_endStop h.2)
    · exact hall
  · rw [stopStep_off (not_and_or.mp h)]
    exact .refl s

theorem holdsAdmin_flushStep (s : State) : s.HoldsAdmin (flushStep s) := by
  unfold flushStep
  split
  · exact holdsAdmin_endFlush s _
  · exact .refl s

/-! ### A happening concluded, and the start of a drain -/

theorem conclude_beside (s : State) :
    (conclude s).admin = (settlePhases s).admin ∧ (conclude s).power = (settlePhases s).power := by
  have hport := settlePort_beside (settleLink (settlePhases s))
  have htags := besideTags_settleLink (settlePhases s)
  exact ⟨(congrArg State.admin hport :).trans (congrArg State.admin htags :),
    (congrArg State.power hport :).trans (congrArg State.power htags :)⟩

theorem holdsAdmin_conclude {s : State} (h : s.atWork = false) : s.HoldsAdmin (conclude s) := by
  have hphases : s.HoldsAdmin (settlePhases s) := by
    rw [settlePhases_notAtWork h]
    exact (holdsAdmin_stopStep s).trans (holdsAdmin_flushStep _)
  have hctl := (conclude_concluded s).ctl
  have hadmin := (conclude_beside s).1
  refine ⟨?_, ?_, ?_⟩
  · rw [hctl]
    exact hphases.tag
  · rw [hctl]
    exact hphases.done
  · rw [hadmin]
    exact hphases.rest

theorem holdsAdmin_startDrain (s : State) (reason : DrainReason) :
    (s.drainSet reason).HoldsAdmin (conclude (startDrain s reason)) :=
  (holdsAdmin_stopAllSlots (s.drainSet reason) .terminated).trans (holdsAdmin_conclude (startDrain_notAtWork s reason))

/-- What a drain that has begun holds of the command in execution: its tag, and until SETTLE the drain's admin
completion (R137, R156). -/
theorem startDrain_admin (s : State) (reason : DrainReason) :
    (conclude (startDrain s reason)).ctl.working.adminTag = s.admin.command.map (fun p => recordTag p.entry) ∧
      (conclude (startDrain s reason)).admin.handover = none ∧
      ((conclude (startDrain s reason)).ctl.phase ≠ .settle →
        (conclude (startDrain s reason)).ctl.adminDone = drainCompletion s reason) := by
  obtain ⟨htag, hdone, hrest⟩ := holdsAdmin_startDrain s reason
  exact ⟨htag, (hrest s.admin.stopped_atRest).1, fun h => (hdone h).2⟩

theorem settlePhases_power {s : State} (h : s.EntryLaw) : (settlePhases s).power = s.power :=
  have hbeside := (settlePhases_entryLaw h).2
  (congrArg State.power hbeside :)

theorem startDrain_power (s : State) (reason : DrainReason) : (conclude (startDrain s reason)).power = s.power := by
  have hphases := settlePhases_power (s := startDrain s reason) fun _ => (startDrain_frame s reason).1
  obtain ⟨ps, a, cs, w, ss, ts, h⟩ := stopAllSlots_eq (s.drainSet reason) .terminated
  have hstart : (startDrain s reason).power = s.power := by rw [startDrain_eq, h]; rfl
  rw [(conclude_beside _).2, hphases, hstart]

/-- A drain has begun from any state with the channels of the one it started in and, but for the deadline timer, its
State Controller. -/
theorem DrainBegun.of_same {s v t : State} {reason : DrainReason} {ts : Word32} (h : DrainBegun v t reason ts)
    (hchan : s.ChannelsStand v) (hctl : ∃ d, v.ctl = { s.ctl with deadline := d }) (hmem : v.mem = s.mem) :
    DrainBegun s t reason ts := by
  obtain ⟨hop, hreason, htime, hentry, hdeadline, htimer, hrequest, harmed, halert, hslots, hfetch, hadmin, hm, hrecord,
    hpending⟩ := h
  obtain ⟨d, hctl⟩ := hctl
  rw [hctl] at hdeadline hrecord hpending
  have habsent : ∀ c, ((v.chan c).state != .absent) = ((s.chan c).state != .absent) := fun c => by
    rw [bne, bne, Bool.eq_iff_iff]
    simp [(hchan c).1]
  refine ⟨hop, hreason, htime, fun c => ⟨(hentry c).1.trans (habsent c), fun hx => ?_⟩, hdeadline, htimer, hrequest,
    harmed, halert, hslots, hfetch, hadmin, hm.trans hmem, hrecord, hpending⟩
  exact ((hentry c).2 (mt (hchan c).1.mp hx)).trans (hchan c).2

end Sys2Proof.Machine
end

section
/-! SUPPORT. The triggers of a drain taken in ACTIVE or QUIESCING (R155): PWR_WARN, the link's loss and its reset, the
grace's expiry and ENTER_RETENTION. Settles O29. -/

-- One theorem at a time, as in the tests above: fewer threads than the memory limit allows.
set_option Elab.async false

namespace Sys2Proof.Machine

/-! ### The command that a drain stops (R137) -/

/-- The command in execution at `s` stands stopped in a drain at `t`, its completion the drain's admin completion; where
the link failed, a RELEASE_PARTITION may have completed first (R137, R156, R173). -/
def State.StopsCommand (s t : State) (linkFails : Bool) : Prop :=
  t.ctl.working.adminTag = s.admin.command.map (fun p => recordTag p.entry) ∧ t.admin.handover = none ∧
    (t.ctl.phase ≠ .settle →
      (s.admin.command = none → t.ctl.adminDone = none) ∧
        ∀ p ∈ s.admin.command,
          (∀ h ∈ s.admin.handover, (∀ i, p.wait ≠ .references i) → t.ctl.adminDone = some h) ∧
            (s.admin.handover = none →
              t.ctl.adminDone = some (adminCompletion p .terminated 0) ∨
                (linkFails = true ∧ ∃ i, p.wait = .references i ∧ (t.part i).state = .free ∧
                  t.ctl.adminDone = some (adminCompletion p .ok 0))))

theorem drainCompletion_idle {s : State} (reason : DrainReason) (h : s.admin.command = none) :
    drainCompletion s reason = none := by
  simp only [drainCompletion, h]

theorem drainCompletion_handedOver {s : State} {p : AdminCommand} {h : Completion} (reason : DrainReason)
    (hp : s.admin.command = some p) (hh : s.admin.handover = some h) : drainCompletion s reason = some h := by
  simp only [drainCompletion, hp, hh]

theorem drainCompletion_terminated {s : State} {p : AdminCommand} {reason : DrainReason} (hr : reason ≠ .hostRequest)
    (hp : s.admin.command = some p) (hh : s.admin.handover = none) :
    drainCompletion s reason = some (adminCompletion p .terminated 0) := by
  simp only [drainCompletion, hp, hh, if_neg hr]

/-- The ENTER_RETENTION that begins a drain is its admin completion, with status OK (R165). -/
theorem drainCompletion_begun {s : State} {f : Fetched} {rest : List Fetched} (h : s.admin.handover = none) :
    drainCompletion (beginCommand s f rest) .hostRequest =
      some (adminCompletion ⟨f.entry, f.headAfter, .none⟩ .ok 0) := by
  simp only [drainCompletion, beginCommand, h, if_true]

/-- A drain started at `v` stops the command that was in execution at `s`, before the link's reads failed. -/
theorem stopsCommand_startDrain {s v : State} {reason : DrainReason} (linkFails : Bool) (hr : reason ≠ .hostRequest)
    (h : s.CommandGoes v) (hl : linkFails = false → v.admin = s.admin) :
    s.StopsCommand (conclude (startDrain v reason)) linkFails := by
  obtain ⟨htag, hhand, hdone⟩ := startDrain_admin v reason
  have hkeeps := (keeps_startDrain v reason).trans (keeps_conclude _)
  generalize conclude (startDrain v reason) = t at *
  obtain ⟨hc, hh⟩ | ⟨p, i, hp, hw, hf, hc, hh⟩ := h.admin
  · refine ⟨by rw [htag, hc], hhand, fun hphase => ⟨fun hn => ?_, fun p hp => ⟨fun x hx _ => ?_, fun hn => .inl ?_⟩⟩⟩
    all_goals rw [hdone hphase]
    · exact drainCompletion_idle reason (hc.trans hn)
    · exact drainCompletion_handedOver reason (hc.trans hp) (hh.trans hx)
    · exact drainCompletion_terminated hr (hc.trans hp) (hh.trans hn)
  · have hfails : linkFails = true := by
      by_contra hno
      rw [hl (Bool.eq_false_of_not_eq_true hno), hp] at hc
      rw [Option.some.inj hc] at hw
      cases hw
    refine ⟨by rw [htag, hc, hp]; rfl, hhand, fun hphase => ⟨fun hn => ?_, fun q hq => ?_⟩⟩
    · rw [hp] at hn
      cases hn
    · obtain rfl : p = q := Option.some.inj (hp.symm.trans hq)
      refine ⟨fun _ _ hno => absurd hw (hno i), fun _ => .inr ⟨hfails, i, hw, hkeeps.free hf, ?_⟩⟩
      rw [hdone hphase]
      exact drainCompletion_handedOver reason hc hh

/-! ### The triggers (R155) -/

theorem exec_pwrWarnAsserted_atWork {s : State} (hcore : s.power.core = true) (hw : s.atWork = true)
    (hp : s.power.pwrWarn = false) :
    exec .pwrWarnAsserted s =
      .next (conclude (startDrain { s with power := { s.power with pwrWarn := true } } .powerWarn)) := by
  show execPwrWarnAsserted s = _
  simp only [execPwrWarnAsserted, hp, hcore, hw, Bool.false_eq_true, Bool.true_eq_false, if_false, if_true]

theorem linkDownTaken_atWork {s : State} (h : s.atWork = true) : linkDownTaken s = startDrain s .linkDown := if_pos h

theorem linkResetTaken_atWork {s : State} (h : s.atWork = true) : linkResetTaken s = startDrain s .linkReset := if_pos h

/-- The state that the grace's expiry starts a drain in: the time left has passed and the monitor is TRIPPED (R145). -/
def State.tripped (s : State) : State :=
  let v := s.elapse (s.monitor.graceLeft.getD 0)
  { v with monitor := { v.monitor with state := .tripped, graceLeft := none } }

theorem exec_graceTimerExpiry_atWork {s : State} (hcore : s.power.core = true) (hw : s.atWork = true)
    (hm : s.monitor.state = .alert) :
    exec .graceTimerExpiry s = .next (conclude (startDrain s.tripped .monitorTrip)) := by
  have hdrain : graceExpired (s.elapse (s.monitor.graceLeft.getD 0)) = startDrain s.tripped .monitorTrip := if_pos hw
  rw [← hdrain]
  exact congrArg Host.Outcome.next (if_pos ⟨hcore, hm⟩)

theorem Monitor.disarmed_tripped {m : Monitor} (h : m.state = .tripped) : m.disarmed = m :=
  if_neg (by simp [h])

theorem exec_enterRetention (s : State) :
    exec .enterRetention s = takeCommand (· == 19) (fun s _ => .waits (startDrain s .hostRequest)) conclude s := rfl

theorem exec_enterRetention_taken {s : State} {f : Fetched} {rest : List Fetched} (h : Takes s f rest 19) :
    exec .enterRetention s = .next (conclude (startDrain (beginCommand s f rest) .hostRequest)) :=
  (exec_enterRetention s).trans (takeCommand_next h rfl)

/-! ### Drains that begin with the failing of every read (R173, R174) -/

/-- A drain that starts once every read of `v` has failed has begun from `s`, which differs from `v` in the link and in
what a link reset clears, and stops its command. -/
theorem drainBegun_failAllTags {s v : State} (reason : DrainReason) (hr : reason ≠ .hostRequest) (hw : v.atWork = true)
    (h : s.CommandGoes v) (hchan : s.ChannelsStand v) (hctl : v.ctl = s.ctl) (hmem : v.mem = s.mem)
    (htime : v.time = s.time) :
    DrainBegun s (conclude (startDrain (failAllTags v) reason)) reason s.time.micros ∧
      s.StopsCommand (conclude (startDrain (failAllTags v) reason)) true := by
  have hnot : v.ctl.op ≠ .draining := fun e => by simp [State.atWork, e] at hw
  have hfailed : (failAllTags v).time = s.time := by
    obtain ⟨ps, a, cs, w, ss, fs, f, e, q, ts, h⟩ := failAllTags_eq v
    rw [h]
    exact htime
  have hbegun := drainBegun_startDrain (failAllTags v) reason
  rw [hfailed] at hbegun
  have hfailctl : (failAllTags v).ctl = s.ctl := (failAllTags_ctl_eq hnot).trans hctl
  have hfailmem : (failAllTags v).mem = s.mem := (keeps_failAllTags v).mem.trans hmem
  exact ⟨hbegun.of_same (hchan.trans (channelsStand_failAllTags v)) ⟨_, hfailctl⟩ hfailmem,
    stopsCommand_startDrain true hr (h.trans (commandGoes_failAllTags v)) Bool.noConfusion⟩

/-- Settles O29: each trigger starts its drain in a state with the channels, the State Controller and buffer memory of
the one it was taken in (`DrainBegun.of_same`), the command stopped as `stopsCommand_startDrain` says. -/
theorem drainStarts : Obligations.DrainStarts := by
  intro s hcore hop ended stops
  have hw : s.atWork = true := atWork_iff.mpr hop
  refine ⟨fun hp => ?_, fun hup => ?_, ?_, fun hm => ?_, fun f rest ht hh => ?_⟩
  · refine ⟨_, exec_pwrWarnAsserted_atWork hcore hw hp, ?_,
      (drainBegun_startDrain _ _).of_same .of_channels ⟨_, rfl⟩ rfl,
      stopsCommand_startDrain false DrainReason.noConfusion (.of_admin .untouched) fun _ => rfl⟩
    rw [startDrain_power]
  · have hexec := linkDown_exec hcore hup
    have hdown := conclude_link_withdrawn (linkDownTaken_taken s.unplugged) (.inl rfl)
      (settleLink_withdrawn (.inl (congrArg Link.up (taken_link (linkDownTaken_taken s.unplugged) (.inl rfl)) :)))
    rw [linkDownTaken_atWork ((failAllTags_atWork s.unplugged).trans hw)] at hexec hdown
    exact ⟨_, hexec, (congrArg Link.up hdown :),
      drainBegun_failAllTags (v := s.unplugged) .linkDown DrainReason.noConfusion hw (.of_admin .untouched)
        .of_channels rfl rfl rfl⟩
  · have hexec := linkReset_exec hcore
    rw [linkResetTaken_atWork ((failAllTags_atWork s.windowReset).trans hw)] at hexec
    exact ⟨_, hexec,
      drainBegun_failAllTags (v := s.windowReset) .linkReset DrainReason.noConfusion hw (.of_admin .untouched)
        .of_channels rfl rfl rfl⟩
  · have hmonitor := (conclude_startDrain_besides s.tripped .monitorTrip).1
    rw [Monitor.disarmed_tripped rfl] at hmonitor
    exact ⟨_, exec_graceTimerExpiry_atWork hcore hw hm, congrArg Monitor.state hmonitor,
      congrArg Monitor.graceLeft hmonitor, (drainBegun_startDrain _ _).of_same .of_channels ⟨_, rfl⟩ rfl,
      stopsCommand_startDrain false DrainReason.noConfusion (.of_admin .untouched) fun _ => rfl⟩
  · obtain ⟨htag, -, hdone⟩ := startDrain_admin (beginCommand s f rest) .hostRequest
    have hbegun := drainBegun_startDrain (beginCommand s f rest) .hostRequest
    rw [drainCompletion_begun hh] at hdone
    refine ⟨_, exec_enterRetention_taken ht, ?_, htag, hdone⟩
    exact hbegun.of_same .of_channels ⟨_, rfl⟩ rfl

end Sys2Proof.Machine
end

section
/-! SUPPORT. The Host Monitor's law, command by command: which operations leave the monitor as it is and do not leave
ACTIVE, and what those that change it do to its timers (R138, R139, R144 to R146). -/

-- One theorem at a time, as in the tests above: fewer threads than the memory limit allows.
set_option Elab.async false

namespace Sys2Proof.Machine

/-! ### The monitor's timers (R138, R139) -/

/-- The monitor watches for beats: it is ARMED or ALERT (R139). -/
abbrev Monitor.Watching (m : Monitor) : Prop := m.state = .armed ∨ m.state = .alert

/-- The timers run exactly as the monitor's state says, and a watching monitor has a period (R138, R139). -/
def Monitor.Timed (m : Monitor) : Prop :=
  (m.elapsed.isSome = true ↔ m.state = .armed) ∧ (m.graceLeft.isSome = true ↔ m.state = .alert) ∧
    (m.Watching → m.periodCode.isSome = true)

theorem monitorLaw_iff {s : State} :
    s.MonitorLaw ↔ (s.monitor.Watching → s.ctl.op = .active) ∧ s.monitor.Timed := Iff.rfl

section
variable {m : Monitor}

/-- A monitor that does not watch is timed exactly where both timers are stopped. -/
theorem timed_idle_iff (h : ¬m.Watching) : m.Timed ↔ m.elapsed = none ∧ m.graceLeft = none := by
  obtain ⟨harmed, halert⟩ := not_or.mp h
  simp [Monitor.Timed, harmed, halert]

theorem Monitor.Timed.periodCode (h : m.Timed) (hw : m.Watching) : m.periodCode.isSome = true :=
  have ⟨_, _, hperiod⟩ := h
  hperiod hw

theorem disarmed_not_watching (m : Monitor) : ¬m.disarmed.Watching := not_or.mpr m.disarmed_state

/-- ARMED with the period counting and no grace. -/
theorem timed_armed {n : Nat} (hs : m.state = .armed) (he : m.elapsed = some n) (hg : m.graceLeft = none)
    (hp : m.periodCode.isSome = true) : m.Timed := by
  simp [Monitor.Timed, hs, he, hg, hp]

/-- ALERT with the grace running and the period stopped. -/
theorem timed_alert {n : Nat} (hs : m.state = .alert) (he : m.elapsed = none) (hg : m.graceLeft = some n)
    (hp : m.periodCode.isSome = true) : m.Timed := by
  simp [Monitor.Timed, hs, he, hg, hp]

theorem timed_disarmed (h : m.Timed) : m.disarmed.Timed := by
  by_cases hw : m.Watching
  · rw [timed_idle_iff (disarmed_not_watching m), Monitor.disarmed, if_pos hw]
    exact ⟨rfl, rfl⟩
  · rwa [Monitor.disarmed, if_neg hw]

theorem timed_untripped (h : m.Timed) : m.untripped.Timed := by
  unfold Monitor.untripped
  split
  · rename_i ht
    have hw : ¬m.Watching := by simp [ht]
    exact (timed_idle_iff (by simp)).mpr ((timed_idle_iff hw).mp h)
  · exact h

/-- The grace that runs out leaves both timers stopped (R145). -/
theorem timed_tripped (h : m.Timed) (ha : m.state = .alert) :
    { m with state := .tripped, graceLeft := none }.Timed := by
  obtain ⟨hperiod, -, -⟩ := h
  have he : m.elapsed = none := by simpa [ha] using hperiod
  exact (timed_idle_iff (by simp)).mpr ⟨he, rfl⟩

/-- Turned off outside ALERT, the monitor does not watch, and no timer of it runs (R140). -/
theorem timed_turnedOff (h : m.Timed) (ha : m.state ≠ .alert) : ¬m.turnedOff.Watching ∧ m.turnedOff.Timed := by
  unfold Monitor.turnedOff
  split
  · rename_i harmed
    obtain ⟨-, hgrace, -⟩ := h
    have hg : m.graceLeft = none := by simpa [harmed] using hgrace
    exact ⟨by simp, (timed_idle_iff (by simp)).mpr ⟨rfl, hg⟩⟩
  · rename_i harmed
    have hw : ¬m.Watching := not_or.mpr ⟨harmed, ha⟩
    exact ⟨hw, (timed_idle_iff (m := { m with periodCode := none }) hw).mpr ((timed_idle_iff hw).mp h)⟩

end

/-! ### Changes that keep the law -/

/-- The monitor's law goes over from `s` to `t`. -/
def State.KeepsMonitor (s t : State) : Prop := s.MonitorLaw → t.MonitorLaw

section
variable {s t u : State}

namespace State.KeepsMonitor

theorem refl (s : State) : s.KeepsMonitor s := id

theorem trans (h : s.KeepsMonitor t) (h' : t.KeepsMonitor u) : s.KeepsMonitor u := h' ∘ h

/-- The monitor is the same, and ACTIVE is not left; for an update of other fields by computation. -/
theorem untouched (hm : t.monitor = s.monitor := by rfl)
    (ho : s.ctl.op = .active → t.ctl.op = .active := by exact id) : s.KeepsMonitor t := by
  simp only [KeepsMonitor, monitorLaw_iff, hm]
  exact fun ⟨hactive, htimed⟩ => ⟨fun hw => ho (hactive hw), htimed⟩

/-- The monitor is the same, and ACTIVE is left by no change from another state. -/
theorem inactive (ho : s.ctl.op ≠ .active) (hm : t.monitor = s.monitor := by rfl) : s.KeepsMonitor t :=
  untouched hm fun h => absurd h ho

/-- An untouched monitor first, then a change that keeps the law. -/
theorem after (h : t.KeepsMonitor u) (hm : t.monitor = s.monitor := by rfl)
    (ho : s.ctl.op = .active → t.ctl.op = .active := by exact id) : s.KeepsMonitor u := (untouched hm ho).trans h

/-- The monitor alone has changed: it watches only where it did, with timers to match. -/
theorem of_monitor {m : Monitor} (hw : m.Watching → s.monitor.Watching) (ht : s.monitor.Timed → m.Timed) :
    s.KeepsMonitor { s with monitor := m } :=
  fun ⟨hactive, htimed⟩ => ⟨fun h => hactive (hw h), ht htimed⟩

/-- The monitor is disarmed (R146): it may leave ACTIVE. -/
theorem of_disarmed (hm : t.monitor = s.monitor.disarmed) : s.KeepsMonitor t := by
  simp only [KeepsMonitor, monitorLaw_iff, hm]
  exact fun ⟨_, htimed⟩ => ⟨fun hw => absurd hw (disarmed_not_watching _), timed_disarmed htimed⟩

end State.KeepsMonitor

end

/-! ### Time -/

theorem isSome_countDown (n : Nat) (x : Option Nat) : (countDown n x).isSome = x.isSome := by
  cases x <;> rfl

/-- Time runs the monitor's timers, and starts or stops none. -/
theorem keepsMonitor_elapse (s : State) (n : Nat) : s.KeepsMonitor (s.elapse n) := by
  simp [State.KeepsMonitor, State.MonitorLaw, State.elapse, isSome_countDown]

theorem keepsMonitor_idleTick (s : State) : s.KeepsMonitor s.idleTick := by
  unfold State.idleTick
  split
  · exact (keepsMonitor_elapse s _).trans .untouched
  · exact .refl s

/-! ### Handing over, vectors and grants -/

theorem keepsMonitor_handOut (s : State) (o : Outbound) : s.KeepsMonitor (s.handOut o) := by
  obtain ⟨q, h⟩ := handOut_eq s o
  rw [h]
  exact .untouched

theorem keepsMonitor_raise (s : State) (c : Cause) : s.KeepsMonitor (s.raise c) := by
  obtain ⟨e, q, h⟩ := raise_eq s c
  rw [h]
  exact .untouched

theorem keepsMonitor_raiseAlert (s : State) (d : AlertDetail) : s.KeepsMonitor (s.raiseAlert d) :=
  (keepsMonitor_raise s _).trans .untouched

theorem keepsMonitor_handOverAdmin (s : State) (st : Status) (v : Word32) :
    s.KeepsMonitor (s.handOverAdmin st v) := by
  obtain ⟨a, h⟩ := handOverAdmin_eq s st v
  rw [h]
  exact .untouched

theorem keepsMonitor_sendVector (s : State) (r : Fin 9) : s.KeepsMonitor (sendVector s r) := by
  obtain ⟨q, rs, h⟩ := sendVector_eq s r
  rw [h]
  exact .untouched

theorem keepsMonitor_signalRest (s : State) (r : Fin 9) : s.KeepsMonitor (signalRest s r) := by
  obtain ⟨q, rs, h⟩ := signalRest_eq s r
  rw [h]
  exact .untouched

theorem keepsMonitor_writeEntry (s : State) (r : Fin 9) (f : Completion) : s.KeepsMonitor (writeEntry s r f) := by
  obtain ⟨q, rs, h⟩ := writeEntry_eq s r f
  rw [h]
  exact .untouched

theorem keepsMonitor_settleLink (s : State) : s.KeepsMonitor (settleLink s) :=
  have h := besideTags_settleLink s
  .untouched (congrArg State.monitor h :) (congrArg (·.ctl.op) h :).trans

theorem keepsMonitor_settlePort (s : State) : s.KeepsMonitor (settlePort s) := by
  rw [settlePort_beside]
  exact .untouched

/-! ### Slots, reads and findings -/

theorem keepsMonitor_advanceSlot (s : State) (k : Fin 4) : s.KeepsMonitor (advanceSlot s k) := by
  obtain ⟨ps, a, cs, w, ss, h⟩ := advanceSlot_eq s k
  rw [h]
  exact .untouched

theorem keepsMonitor_refuseSlot (s : State) (k : Fin 4) (st : Status) : s.KeepsMonitor (refuseSlot s k st) := by
  obtain ⟨ps, a, cs, w, ss, h⟩ := refuseSlot_eq s k st
  rw [h]
  exact .untouched

theorem keepsMonitor_checkFields (s : State) (k : Fin 4) : s.KeepsMonitor (checkFields s k) := by
  obtain ⟨ps, a, cs, w, ss, h⟩ := checkFields_eq s k
  rw [h]
  exact .untouched

theorem keepsMonitor_stopBoundSlot (s : State) (c : Fin 16) : s.KeepsMonitor (stopBoundSlot s c) := by
  unfold stopBoundSlot
  split
  · exact .refl s
  · obtain ⟨ps, a, cs, w, ss, ts, h⟩ := stopSlot_eq s ‹_› .aborted
    rw [h]
    exact .untouched

theorem keepsMonitor_enterRun (s : State) (k : Fin 4) (kind : Kind) : s.KeepsMonitor (enterRun s k kind) := by
  obtain ⟨ps, h⟩ := takeRefs_eq s (s.slot k).entry kind
  unfold enterRun
  simp only [h]
  exact (keepsMonitor_advanceSlot _ k).after

theorem keepsMonitor_scheduleChoice (s : State) (k : Fin 4) (c : Fin 16) (turn : Turn) :
    s.KeepsMonitor (scheduleChoice s k c turn) := by
  unfold scheduleChoice
  split
  · exact .refl s
  · exact (keepsMonitor_checkFields _ k).after

theorem keepsMonitor_readTaken (s : State) (k : Fin 4) (o : SlotOp) (good : List Byte) (failed : Bool) :
    s.KeepsMonitor (readTaken s k o good failed) := by
  unfold readTaken
  simp only
  split
  · split
    · exact .untouched
    · exact (keepsMonitor_handOut s _).trans .untouched
  · exact .untouched
  · split <;> exact .untouched
  · exact .untouched

theorem keepsMonitor_readDone (s : State) (x : Tag) (bs : List Byte) : s.KeepsMonitor (readDone s x bs) := by
  obtain ⟨ps, a, cs, w, ss, fs, f, h⟩ := readDone_eq s x bs
  rw [h]
  exact .untouched

theorem keepsMonitor_readFailed (s : State) (x : Tag) : s.KeepsMonitor (readFailed s x) := by
  obtain ⟨ps, a, cs, w, ss, fs, f, e, q, ts, h⟩ := readFailed_eq s x
  rw [h]
  exact .untouched

theorem keepsMonitor_failAllTags (s : State) : s.KeepsMonitor (failAllTags s) := by
  obtain ⟨ps, a, cs, w, ss, fs, f, e, q, ts, h⟩ := failAllTags_eq s
  rw [h]
  exact .untouched

theorem keepsMonitor_reportFindings (s : State) (ws : List (Nat × Finding)) :
    s.KeepsMonitor (reportFindings s ws) := by
  obtain ⟨hs, e, q, h⟩ := reportFindings_eq s ws
  rw [h]
  exact .untouched

/-! ### Passages: QUIESCING alone is left (R46, R153, R157 to R160) -/

theorem keepsMonitor_endDeletion (s : State) : s.KeepsMonitor (endDeletion s) := by
  obtain ⟨cs, fs, rs, a, h⟩ := endDeletion_eq s
  rw [h]
  exact .untouched

theorem keepsMonitor_quiesceStep (s : State) : s.KeepsMonitor (quiesceStep s) := by
  unfold quiesceStep
  split
  · rename_i ho
    have hactive : s.ctl.op ≠ .active := by simp [ho]
    obtain ⟨cs, fs, rs, h⟩ := foldl_quiesceChannel_eq allChannels s
    simp only [h]
    split
    · obtain ⟨rs', q, h'⟩ := endQuiesce_eq { s with channels := cs, fetch := fs, rings := rs }
      rw [h']
      exact .inactive hactive
    · exact .untouched
  · exact .refl s

theorem keepsMonitor_beginSettle (s : State) : s.KeepsMonitor (beginSettle s) := by
  obtain ⟨cs, fs, rs, q, w, a, h⟩ := beginSettle_eq s
  rw [h]
  exact .untouched

theorem keepsMonitor_endFlush (s : State) (o : FlushOutcome) : s.KeepsMonitor (endFlush s o) :=
  (keepsMonitor_beginSettle _).after

theorem keepsMonitor_endStop (s : State) : s.KeepsMonitor (endStop s) := by
  unfold endStop
  split
  · split
    · exact keepsMonitor_endFlush s _
    · exact .untouched
  · exact keepsMonitor_beginSettle s

theorem keepsMonitor_stopStep (s : State) : s.KeepsMonitor (stopStep s) := by
  obtain ⟨cs, w, h⟩ := foldl_terminateFetched_eq allChannels s
  unfold stopStep
  split
  · simp only [h]
    split
    · exact (keepsMonitor_endStop _).after
    · exact .untouched
  · exact .refl s

theorem keepsMonitor_flushStep (s : State) : s.KeepsMonitor (flushStep s) := by
  unfold flushStep
  split
  · exact keepsMonitor_endFlush s _
  · exact .refl s

theorem keepsMonitor_settlePhases (s : State) : s.KeepsMonitor (settlePhases s) :=
  (keepsMonitor_endDeletion s).trans <| (keepsMonitor_quiesceStep _).trans <|
    (keepsMonitor_stopStep _).trans (keepsMonitor_flushStep _)

theorem keepsMonitor_conclude (s : State) : s.KeepsMonitor (conclude s) :=
  (keepsMonitor_settlePhases s).trans <| (keepsMonitor_settleLink _).trans (keepsMonitor_settlePort _)

/-! ### Drains and resets disarm the monitor (R146) -/

theorem keepsMonitor_startDrain (s : State) (reason : DrainReason) : s.KeepsMonitor (startDrain s reason) :=
  .of_disarmed (startDrain_besides s reason).1

theorem keepsMonitor_takeTriggers (s : State) (l : List DrainReason) : s.KeepsMonitor (takeTriggers s l) := by
  unfold takeTriggers
  split
  · exact .refl s
  · exact keepsMonitor_startDrain s _
  · exact (keepsMonitor_startDrain s _).trans .untouched

theorem keepsMonitor_functionReset (s : State) : s.KeepsMonitor (functionReset s) := by
  obtain ⟨ps, a, cs, w, ss, ts, h⟩ := stopAllSlots_eq s.abandoned .silent
  rw [functionReset_eq, h]
  exact .of_disarmed rfl

/-- STANDBY, which settles directly, is not ACTIVE (R155). -/
theorem keepsMonitor_settleStandby {s : State} (ho : s.ctl.op ≠ .active) : s.KeepsMonitor (settleStandby s) :=
  (keepsMonitor_beginSettle _).after (ho := (absurd · ho))

theorem keepsMonitor_linkDownTaken (s : State) : s.KeepsMonitor (linkDownTaken s) := by
  unfold linkDownTaken
  split
  · exact keepsMonitor_startDrain s _
  · split
    · exact keepsMonitor_endFlush s _
    · exact .refl s

theorem keepsMonitor_linkResetTaken (s : State) : s.KeepsMonitor (linkResetTaken s) := by
  unfold linkResetTaken
  split
  · exact keepsMonitor_startDrain s _
  · split <;> exact .untouched

/-- A link reset clears of the monitor the beat and the last result alone (R138, R174). -/
theorem keepsMonitor_linkCleared (s : State) : s.KeepsMonitor (linkCleared s) := by
  unfold linkCleared
  have hcleared : s.KeepsMonitor { s with monitor := { s.monitor with beat := 0, last := .none } } := .of_monitor id id
  exact hcleared.trans (keepsMonitor_failAllTags _).after

theorem keepsMonitor_deadlineExpired (s : State) : s.KeepsMonitor (deadlineExpired s) := by
  unfold deadlineExpired
  split
  · exact keepsMonitor_endFlush s _
  · exact .untouched

/-- The exit ends in ACTIVE, where every monitor may watch (R146, R163). -/
theorem keepsMonitor_exitComplete (s : State) : s.KeepsMonitor (exitComplete s) :=
  fun ⟨_, htimed⟩ => ⟨fun _ => rfl, timed_untripped htimed⟩

/-! ### Beats and expiries (R141 to R145) -/

/-- The last result of a write alone has changed (R147). -/
theorem keepsMonitor_last (s : State) (l : LastResult) :
    s.KeepsMonitor { s with monitor := { s.monitor with last := l } } := .of_monitor id id

/-- A correct beat leaves a watching monitor ARMED (R142, R143). -/
theorem keepsMonitor_accepted {s : State} (hw : s.monitor.Watching) :
    s.KeepsMonitor { s with monitor := s.monitor.accepted } :=
  .of_monitor (fun _ => hw) fun ht => timed_armed rfl rfl rfl (ht.periodCode hw)

/-- An early beat leaves a watching monitor in ALERT (R142). -/
theorem keepsMonitor_earlyBeat {s : State} (hw : s.monitor.Watching) :
    s.KeepsMonitor { s with monitor := s.monitor.earlyBeat } :=
  .of_monitor (fun _ => hw) fun ht => timed_alert rfl rfl rfl (ht.periodCode hw)

theorem keepsMonitor_takeBeat (s : State) (token : BitVec 8) : s.KeepsMonitor (takeBeat s token) := by
  unfold takeBeat
  simp only
  split
  · exact keepsMonitor_last s _
  · exact keepsMonitor_last s _
  · rename_i harmed
    split
    · exact keepsMonitor_last s _
    split
    · exact (keepsMonitor_earlyBeat (.inl harmed)).trans (keepsMonitor_raiseAlert _ _)
    · exact keepsMonitor_accepted (.inl harmed)
  · rename_i halert
    split
    · exact keepsMonitor_last s _
    · exact keepsMonitor_accepted (.inr halert)

/-- A period that runs out leaves the monitor in ALERT (R144). -/
theorem keepsMonitor_periodExpired {s : State} (hs : s.monitor.state = .armed) : s.KeepsMonitor (periodExpired s) := by
  unfold periodExpired
  refine State.KeepsMonitor.trans ?_ (keepsMonitor_raiseAlert _ _)
  exact .of_monitor (fun _ => .inl hs) fun ht => timed_alert rfl rfl rfl (ht.periodCode (.inl hs))

/-- A grace that runs out trips the monitor and starts the drain (R145). -/
theorem keepsMonitor_graceExpired {s : State} (hs : s.monitor.state = .alert) : s.KeepsMonitor (graceExpired s) := by
  have htripped : s.KeepsMonitor { s with monitor := { s.monitor with state := .tripped, graceLeft := none } } :=
    .of_monitor (fun _ => .inr hs) fun ht => timed_tripped ht hs
  unfold graceExpired trigger
  split
  · exact htripped.trans (keepsMonitor_startDrain _ _)
  · exact htripped

/-! ### Rings -/

theorem keepsMonitor_takeHead (s : State) (r : Fin 9) (n : Nat) : s.KeepsMonitor (takeHead s r n) := by
  unfold takeHead
  simp only
  split
  · exact .untouched
  · unfold faultRing
    simp only
    refine State.KeepsMonitor.trans (State.KeepsMonitor.trans ?_ (keepsMonitor_raise _ _)) .untouched
    split
    · exact (keepsMonitor_sendVector _ r).after
    · exact .untouched

theorem keepsMonitor_delayExpired (s : State) (r : Fin 9) : s.KeepsMonitor (delayExpired s r) := by
  unfold delayExpired
  split
  · exact keepsMonitor_sendVector s r
  · exact .untouched

/-! ### Commands of the admin ring (R134) -/

theorem keepsMonitor_done {s t : State} (h : s.KeepsMonitor t) (st : Status) (v : Word32) :
    s.KeepsMonitor (Taken.done t st v).state := h.trans (keepsMonitor_handOverAdmin t st v)

theorem keepsMonitor_refused (s : State) (st : Status) : s.KeepsMonitor (Taken.refused s st).state :=
  keepsMonitor_handOverAdmin s st 0

theorem keepsMonitor_postRecord (s : State) (r : Record) (bytes : List Byte) :
    s.KeepsMonitor (postRecord s r bytes) := keepsMonitor_handOut s _

theorem keepsMonitor_withPartition {s : State} {r : Record} {body : Fin 16 → Taken}
    (h : ∀ i, s.KeepsMonitor (body i).state) : s.KeepsMonitor (withPartition s r body).state := by
  unfold withPartition
  split
  · exact keepsMonitor_refused s _
  · split
    · exact keepsMonitor_refused s _
    · exact h _

theorem keepsMonitor_withChannel {s : State} {r : Record} {body : Fin 16 → Taken}
    (h : ∀ c, s.KeepsMonitor (body c).state) : s.KeepsMonitor (withChannel s r body).state := by
  unfold withChannel
  split
  · exact keepsMonitor_refused s _
  · split
    · exact keepsMonitor_refused s _
    · exact h _

theorem keepsMonitor_definePart (s : State) (r : Record) (i : Fin 16) : s.KeepsMonitor (definePart s r i).state := by
  obtain ⟨st, h⟩ | ⟨p, -, h⟩ := definePart_cases s r i <;> rw [h]
  · exact keepsMonitor_refused s st
  · exact keepsMonitor_done .untouched _ _

theorem keepsMonitor_freezePart (s : State) (i : Fin 16) : s.KeepsMonitor (freezePart s i).state := by
  unfold freezePart
  split_ifs
  · exact keepsMonitor_refused s _
  · exact keepsMonitor_refused s _
  · exact keepsMonitor_refused s _
  · exact keepsMonitor_done .untouched _ _

theorem keepsMonitor_releasePart (s : State) (i : Fin 16) : s.KeepsMonitor (releasePart s i).state := by
  unfold releasePart
  split_ifs
  · exact keepsMonitor_refused s _
  · exact keepsMonitor_done .untouched _ _
  · exact .untouched

theorem keepsMonitor_clearTornPart (s : State) (i : Fin 16) : s.KeepsMonitor (clearTornPart s i).state := by
  unfold clearTornPart
  split_ifs
  · exact keepsMonitor_refused s _
  · exact keepsMonitor_done .untouched _ _

theorem keepsMonitor_getPartitions (s : State) (r : Record) : s.KeepsMonitor (getPartitions s r).state := by
  unfold getPartitions
  split_ifs
  · exact keepsMonitor_done (keepsMonitor_postRecord s r _) _ _
  · exact keepsMonitor_refused s _

theorem keepsMonitor_getHealth (s : State) (r : Record) : s.KeepsMonitor (getHealth s r).state := by
  unfold getHealth
  split_ifs
  · exact keepsMonitor_done (keepsMonitor_postRecord s r _) _ _
  · exact keepsMonitor_refused s _

theorem keepsMonitor_getRetentionRecord (s : State) (r : Record) :
    s.KeepsMonitor (getRetentionRecord s r).state := by
  unfold getRetentionRecord
  split_ifs
  · exact keepsMonitor_refused s _
  · exact keepsMonitor_refused s _
  · exact keepsMonitor_done (keepsMonitor_postRecord s r _) _ _

theorem keepsMonitor_createChannel (s : State) (r : Record) : s.KeepsMonitor (createChannel s r).state := by
  have hrefused : ∀ st, s.KeepsMonitor (Taken.refused s st).state := keepsMonitor_refused s
  unfold createChannel
  split
  · exact hrefused _
  split
  · exact hrefused _
  split
  · exact hrefused _
  split
  · exact hrefused _
  split
  · exact hrefused _
  split
  · split
    · exact keepsMonitor_done .untouched _ _
    · exact hrefused _
  · exact hrefused _

theorem keepsMonitor_deleteChan (s : State) (c : Fin 16) : s.KeepsMonitor (deleteChan s c).state :=
  (keepsMonitor_stopBoundSlot _ c).after

theorem keepsMonitor_pauseChan (s : State) (c : Fin 16) : s.KeepsMonitor (pauseChan s c).state := by
  unfold pauseChan
  split_ifs
  · exact keepsMonitor_refused s _
  · exact keepsMonitor_done .untouched _ _

theorem keepsMonitor_resumeChan (s : State) (c : Fin 16) : s.KeepsMonitor (resumeChan s c).state := by
  unfold resumeChan
  simp only
  split_ifs
  · exact keepsMonitor_done .untouched _ _
  · exact keepsMonitor_refused s _

theorem keepsMonitor_createCq (s : State) (r : Record) : s.KeepsMonitor (createCq s r).state := by
  unfold createCq
  split
  · exact keepsMonitor_refused s _
  · split_ifs
    · exact keepsMonitor_refused s _
    · exact keepsMonitor_done .untouched _ _
    · exact keepsMonitor_refused s _

theorem keepsMonitor_deleteCq (s : State) (r : Record) : s.KeepsMonitor (deleteCq s r).state := by
  unfold deleteCq
  split
  · exact keepsMonitor_refused s _
  · split_ifs
    · exact keepsMonitor_refused s _
    · exact keepsMonitor_refused s _
    · exact keepsMonitor_done ((keepsMonitor_signalRest s _).trans .untouched) _ _

theorem keepsMonitor_setRefresh (s : State) (r : Record) : s.KeepsMonitor (setRefresh s r).state := by
  unfold setRefresh
  simp only
  split_ifs
  · exact keepsMonitor_refused s _
  · exact keepsMonitor_refused s _
  all_goals exact keepsMonitor_done .untouched _ _

theorem keepsMonitor_setScrub (s : State) (r : Record) : s.KeepsMonitor (setScrub s r).state := by
  unfold setScrub
  simp only
  split_ifs
  · exact keepsMonitor_refused s _
  · exact keepsMonitor_done .untouched _ _

theorem keepsMonitor_setLinkTimeout (s : State) (r : Record) : s.KeepsMonitor (setLinkTimeout s r).state := by
  unfold setLinkTimeout
  simp only
  split_ifs
  · exact keepsMonitor_refused s _
  · exact keepsMonitor_done .untouched _ _

theorem keepsMonitor_setDrain (s : State) (r : Record) : s.KeepsMonitor (setDrain s r).state := by
  unfold setDrain
  simp only
  split_ifs
  · exact keepsMonitor_refused s _
  · exact keepsMonitor_done .untouched _ _

theorem keepsMonitor_claimRetained (s : State) (r : Record) : s.KeepsMonitor (claimRetained s r).state := by
  unfold claimRetained
  split_ifs
  · exact keepsMonitor_refused s _
  · exact keepsMonitor_done .untouched _ _

theorem keepsMonitor_discardRetained (s : State) (r : Record) : s.KeepsMonitor (discardRetained s r).state := by
  unfold discardRetained
  split_ifs
  · exact keepsMonitor_refused s _
  · exact keepsMonitor_done .untouched _ _

/-- SET_MONITOR arms the monitor in ACTIVE alone, and turns it off where it is not in ALERT (R140). -/
theorem keepsMonitor_setMonitor {s : State} (ho : s.ctl.op = .active) (r : Record) :
    s.KeepsMonitor (setMonitor s r).state := by
  unfold setMonitor
  simp only
  split_ifs with _ _ halert
  · exact keepsMonitor_refused s _
  · exact keepsMonitor_refused s _
  · exact keepsMonitor_refused s _
  · refine keepsMonitor_done (fun ⟨_, htimed⟩ => ?_) _ _
    obtain ⟨hidle, hoff⟩ := timed_turnedOff htimed halert
    exact ⟨fun hw => absurd hw hidle, hoff⟩
  · refine keepsMonitor_done ?_ _ _
    exact fun _ => ⟨fun _ => ho, timed_armed rfl rfl rfl rfl⟩

end Sys2Proof.Machine
end

section
/-! SUPPORT. Every command keeps the Host Monitor's law (`exec_monitorKeptIn`), self-refresh entry by the retained law.
Settles O11. -/

-- One theorem at a time, as in the tests above: fewer threads than the memory limit allows.
set_option Elab.async false

namespace Sys2Proof.Machine

/-- The monitor's law goes over to each next state that the outcome can be. -/
def State.MonitorKeptIn (s : State) (o : Out) : Prop := ∀ t, o = .next t → s.KeepsMonitor t

section
variable {s t : State}

theorem monitorKeptIn_next (h : s.KeepsMonitor t) : s.MonitorKeptIn (.next t) := fun _ e => by
  cases e
  exact h

theorem monitorKeptIn_fault (f : Fault) : s.MonitorKeptIn (.fault f) := fun _ e => nomatch e

theorem monitorKeptIn_same : s.MonitorKeptIn (.next s) := monitorKeptIn_next (.refl s)

theorem monitorKeptIn_raised (c : Cause) : s.MonitorKeptIn (.next (s.raise c)) :=
  monitorKeptIn_next (keepsMonitor_raise s c)

theorem monitorKeptIn_concluded (h : s.KeepsMonitor t) : s.MonitorKeptIn (.next (conclude t)) :=
  monitorKeptIn_next (h.trans (keepsMonitor_conclude t))

theorem monitorKeptIn_linked (h : s.KeepsMonitor t) : s.MonitorKeptIn (.next (settleLink t)) :=
  monitorKeptIn_next (h.trans (keepsMonitor_settleLink t))

theorem monitorKeptIn_ite {p : Prop} [Decidable p] (h : p → s.MonitorKeptIn (.next t)) :
    s.MonitorKeptIn (.next (if p then t else s)) := by
  split
  · exact h ‹_›
  · exact monitorKeptIn_same

end

/-! ### Commands of the admin ring (R134) -/

/-- A command is taken in ACTIVE alone (R134). -/
theorem canTake_active {s : State} (h : canTake s = true) : s.ctl.op = .active := by
  unfold canTake at h
  simp only [Bool.and_eq_true, beq_iff_eq] at h
  obtain ⟨⟨-, hop⟩, -⟩ := h
  exact hop

theorem monitorKeptIn_takeCommand {codes : Nat → Bool} {body : State → Record → Taken} {fin : State → State}
    (hf : ∀ u : State, u.KeepsMonitor (fin u))
    (hb : ∀ (s : State) (r : Record), s.ctl.op = .active → s.KeepsMonitor (body s r).state) (s : State) :
    s.MonitorKeptIn (takeCommand codes body fin s) := by
  unfold takeCommand
  split
  · exact monitorKeptIn_same
  · split
    · rename_i f rest _ h
      obtain ⟨htake, -⟩ := h
      have hbody := hb (beginCommand s f rest) f.entry (canTake_active (s := s) htake)
      exact monitorKeptIn_next (hbody.after.trans (hf _))
    · exact monitorKeptIn_same

/-- A command of the admin ring that ends with the link settled. -/
theorem monitorKeptIn_taken {codes : Nat → Bool} {body : State → Record → Taken}
    (hb : ∀ (s : State) (r : Record), s.KeepsMonitor (body s r).state) (s : State) :
    s.MonitorKeptIn (takeCommand codes body settleLink s) :=
  monitorKeptIn_takeCommand keepsMonitor_settleLink (fun s r _ => hb s r) s

/-! ### Register writes -/

/-- ENABLE makes the state ACTIVE, or drains it at once (R152). -/
theorem keepsMonitor_enableStandby (s : State) : s.KeepsMonitor (enableStandby s) := by
  have hset : s.KeepsMonitor (setUpAdminRing { s with ctl := { s.ctl with op := .active } }) :=
    .untouched (ho := fun _ => rfl)
  unfold enableStandby
  refine State.KeepsMonitor.trans ?_ (keepsMonitor_conclude _)
  split
  · exact hset
  · exact hset.trans (keepsMonitor_startDrain _ _)

theorem monitorKeptIn_enable (s : State) : s.MonitorKeptIn (execEnable s) := by
  unfold execEnable
  split
  · exact monitorKeptIn_same
  split
  · split
    · exact monitorKeptIn_next (keepsMonitor_enableStandby s)
    · exact monitorKeptIn_raised _
  · split
    · exact monitorKeptIn_same
    · split
      · exact monitorKeptIn_next .untouched
      · exact monitorKeptIn_raised _
  all_goals exact monitorKeptIn_same

/-- QUIESCE leaves ACTIVE with the monitor disarmed (R146, R153). -/
theorem monitorKeptIn_quiesce (s : State) : s.MonitorKeptIn (execQuiesce s) :=
  monitorKeptIn_ite fun _ => monitorKeptIn_concluded (.of_disarmed rfl)

theorem monitorKeptIn_functionReset (s : State) : s.MonitorKeptIn (execFunctionReset s) := by
  unfold execFunctionReset
  split
  · exact monitorKeptIn_same
  split
  · exact monitorKeptIn_concluded (keepsMonitor_functionReset s)
  · exact monitorKeptIn_ite fun _ => monitorKeptIn_next .untouched

theorem monitorKeptIn_notifySqTail (ring : BitVec 8) (index : BitVec 16) (s : State) :
    s.MonitorKeptIn (execNotifySqTail ring index s) := by
  unfold execNotifySqTail
  split
  · exact monitorKeptIn_same
  split
  · unfold notifyAdminTail
    split
    · exact monitorKeptIn_linked .untouched
    · exact monitorKeptIn_raised _
  split
  · exact monitorKeptIn_raised _
  · unfold notifyChannelTail
    split
    · exact monitorKeptIn_raised _
    · exact monitorKeptIn_linked .untouched

theorem monitorKeptIn_notifyCqHead (ring : BitVec 8) (index : BitVec 16) (s : State) :
    s.MonitorKeptIn (execNotifyCqHead ring index s) := by
  unfold execNotifyCqHead
  split
  · exact monitorKeptIn_same
  split
  · exact monitorKeptIn_raised _
  split
  · exact monitorKeptIn_concluded (keepsMonitor_takeHead s _ _)
  · exact monitorKeptIn_raised _

/-! ### The array's care -/

theorem keepsMonitor_scrubLineEnd (s : State) (fs : List Finding) : s.KeepsMonitor (scrubLineEnd s fs) := by
  unfold scrubLineEnd
  refine State.KeepsMonitor.trans ?_ ((keepsMonitor_reportFindings _ _).trans (keepsMonitor_settlePort _))
  split <;> exact .untouched

theorem monitorKeptIn_scrubLine (fs : List Finding) (s : State) : s.MonitorKeptIn (execScrubLine fs s) := by
  unfold execScrubLine
  split
  · split
    · exact monitorKeptIn_next (keepsMonitor_scrubLineEnd s fs)
    · exact monitorKeptIn_fault _
  · exact monitorKeptIn_same

/-- Self-refresh entry ends in RETAINED from DRAINING, where no monitor watches (R139, R160). -/
theorem keepsMonitor_entryComplete {s : State} (ho : s.ctl.op = .draining) : s.KeepsMonitor (entryComplete s) := by
  unfold entryComplete
  refine State.KeepsMonitor.trans ?_ (keepsMonitor_raise _ _)
  exact .inactive (by simp [ho])

/-- The port is held for self-refresh entry in DRAINING alone (R110, R160). -/
theorem retainedLaw_entry_draining {s : State} (hs : s.RetainedLaw) (hh : s.port.holder = .selfRefreshEntry) :
    s.ctl.op = .draining := by
  obtain ⟨-, -, -, hentry, -⟩ := hs
  obtain ⟨⟨hop, -⟩, -⟩ := hentry hh
  exact hop

theorem keepsMonitor_accrue (s : State) : s.KeepsMonitor (accrue s) := by
  unfold accrue
  split
  · exact .untouched
  · exact (keepsMonitor_raise _ _).after

theorem keepsMonitor_intervalExpired (s : State) : s.KeepsMonitor (intervalExpired s) :=
  (keepsMonitor_accrue s).trans (keepsMonitor_settlePort _).after

theorem monitorKeptIn_intervalExpiry (s : State) : s.MonitorKeptIn (execIntervalExpiry s) := by
  unfold execIntervalExpiry
  split
  · exact monitorKeptIn_same
  split
  · exact monitorKeptIn_same
  · exact monitorKeptIn_next ((keepsMonitor_elapse s _).trans (keepsMonitor_intervalExpired _))

theorem keepsMonitor_scrubTicked (s : State) : s.KeepsMonitor (scrubTicked s) := by
  cases hr : s.scrub.request with
  | true =>
    rw [scrubTicked_deferred hr]
    exact .untouched
  | false =>
    rw [scrubTicked_asks hr]
    exact (keepsMonitor_settlePort _).after

theorem monitorKeptIn_scrubTick (s : State) : s.MonitorKeptIn (execScrubTick s) := by
  unfold execScrubTick
  split
  · exact monitorKeptIn_same
  split
  · exact monitorKeptIn_same
  · exact monitorKeptIn_next ((keepsMonitor_elapse s _).trans (keepsMonitor_scrubTicked _))

/-! ### Timers and completions -/

theorem monitorKeptIn_delayTimerExpiry (r : Fin 9) (s : State) : s.MonitorKeptIn (execDelayTimerExpiry r s) := by
  unfold execDelayTimerExpiry
  split
  · exact monitorKeptIn_same
  split
  · exact monitorKeptIn_same
  · exact monitorKeptIn_next ((keepsMonitor_elapse s _).trans (keepsMonitor_delayExpired _ r))

theorem monitorKeptIn_periodTimerExpiry (s : State) : s.MonitorKeptIn (execPeriodTimerExpiry s) :=
  monitorKeptIn_ite fun ⟨_, h⟩ =>
    monitorKeptIn_next ((keepsMonitor_elapse s _).trans (keepsMonitor_periodExpired h))

theorem monitorKeptIn_graceTimerExpiry (s : State) : s.MonitorKeptIn (execGraceTimerExpiry s) :=
  monitorKeptIn_ite fun ⟨_, h⟩ =>
    monitorKeptIn_concluded ((keepsMonitor_elapse s _).trans (keepsMonitor_graceExpired h))

theorem monitorKeptIn_drainDeadlineExpiry (s : State) : s.MonitorKeptIn (execDrainDeadlineExpiry s) := by
  unfold execDrainDeadlineExpiry
  split
  · exact monitorKeptIn_same
  split
  · exact monitorKeptIn_same
  · exact monitorKeptIn_concluded ((keepsMonitor_elapse s _).trans (keepsMonitor_deadlineExpired _))

theorem monitorKeptIn_completionWrite (r : Fin 9) (s : State) : s.MonitorKeptIn (execCompletionWrite r s) := by
  have hchannel (c : Fin 16) (f : Completion) : s.MonitorKeptIn (.next (conclude (writeFromChannel s r c f))) :=
    monitorKeptIn_concluded (keepsMonitor_writeEntry _ r f).after
  unfold execCompletionWrite
  split
  · exact monitorKeptIn_same
  split
  · unfold writeAtWork
    split
    · split
      · exact monitorKeptIn_same
      · exact monitorKeptIn_concluded (keepsMonitor_writeEntry _ 0 _).after
    · split
      · exact monitorKeptIn_same
      · split
        · exact monitorKeptIn_same
        · exact hchannel _ _
  split
  · unfold writeInFlush
    split
    · exact monitorKeptIn_same
    · split
      · split
        · exact monitorKeptIn_concluded (keepsMonitor_writeEntry _ 0 _).after
        · exact hchannel _ _
      · exact monitorKeptIn_same
  · exact monitorKeptIn_same

theorem monitorKeptIn_completionDiscard (src : CompletionSource) (s : State) :
    s.MonitorKeptIn (execCompletionDiscard src s) := by
  unfold execCompletionDiscard
  split
  · exact monitorKeptIn_same
  split
  · unfold discardAtWork
    split <;> exact monitorKeptIn_ite fun _ => monitorKeptIn_concluded .untouched
  split
  · unfold discardInFlush
    split
    · exact monitorKeptIn_same
    · split
      · split <;> exact monitorKeptIn_concluded .untouched
      · exact monitorKeptIn_same
  · exact monitorKeptIn_same

/-! ### Descriptors and reads -/

theorem monitorKeptIn_slotSchedulerChoice (s : State) : s.MonitorKeptIn (execSlotSchedulerChoice s) := by
  unfold execSlotSchedulerChoice
  split
  · exact monitorKeptIn_same
  split
  · exact monitorKeptIn_concluded (keepsMonitor_scheduleChoice s _ _ _)
  · exact monitorKeptIn_same

theorem monitorKeptIn_presentation (k : Fin 4) (s : State) : s.MonitorKeptIn (execPresentation k s) := by
  unfold execPresentation
  simp only
  split
  · exact monitorKeptIn_same
  split
  · exact monitorKeptIn_same
  split
  · exact monitorKeptIn_concluded (keepsMonitor_refuseSlot s k _)
  · exact monitorKeptIn_concluded (keepsMonitor_enterRun s k _)

/-- A slot moves on after its port operation, and what the operation found is reported. -/
theorem keepsMonitor_slotReported {s t : State} (h : s.KeepsMonitor t) (k : Fin 4) (ws : List (Nat × Finding)) :
    s.KeepsMonitor (reportFindings (advanceSlot t k) ws) :=
  (h.trans (keepsMonitor_advanceSlot t k)).trans (keepsMonitor_reportFindings _ ws)

theorem monitorKeptIn_readBurst (fs : List Finding) (s : State) : s.MonitorKeptIn (execReadBurst fs s) := by
  unfold execReadBurst
  split
  · exact monitorKeptIn_same
  split
  · exact monitorKeptIn_same
  split
  · exact monitorKeptIn_concluded (keepsMonitor_slotReported (keepsMonitor_readTaken _ _ _ _ _).after _ _)
  · exact monitorKeptIn_fault _

theorem monitorKeptIn_writeBurst (s : State) : s.MonitorKeptIn (execWriteBurst s) := by
  unfold execWriteBurst
  split
  · exact monitorKeptIn_same
  split
  · exact monitorKeptIn_same
  split
  · unfold writeBurstEnd
    refine monitorKeptIn_concluded (State.KeepsMonitor.trans ?_ .untouched)
    exact (keepsMonitor_advanceSlot _ _).after
  · exact monitorKeptIn_fault _

theorem monitorKeptIn_readModifyWrite (f : Finding) (s : State) : s.MonitorKeptIn (execReadModifyWrite f s) := by
  unfold execReadModifyWrite
  split
  · exact monitorKeptIn_same
  split
  · exact monitorKeptIn_same
  split
  · simp only
    split
    · exact monitorKeptIn_concluded (keepsMonitor_slotReported .untouched _ _)
    · exact monitorKeptIn_concluded (keepsMonitor_slotReported .untouched _ _)
  · exact monitorKeptIn_fault _

theorem monitorKeptIn_hostReadData (g : Fin 16) (bs : List Byte) (s : State) :
    s.MonitorKeptIn (execHostReadData g bs s) := by
  unfold execHostReadData
  simp only
  split
  · exact monitorKeptIn_same
  split
  · exact monitorKeptIn_next .untouched
  · exact monitorKeptIn_concluded (keepsMonitor_readDone _ _ _).after

theorem monitorKeptIn_readErrorReturn (g : Fin 16) (s : State) : s.MonitorKeptIn (execReadErrorReturn g s) := by
  unfold execReadErrorReturn
  split
  · exact monitorKeptIn_same
  · exact monitorKeptIn_concluded (keepsMonitor_readFailed _ _).after

theorem monitorKeptIn_linkReadTimeout (g : Fin 16) (s : State) : s.MonitorKeptIn (execLinkReadTimeout g s) := by
  unfold execLinkReadTimeout
  split
  · exact monitorKeptIn_same
  · exact monitorKeptIn_concluded ((keepsMonitor_elapse s _).trans (keepsMonitor_readFailed _ _).after)

theorem monitorKeptIn_quarantineEnd (g : Fin 16) (s : State) : s.MonitorKeptIn (execQuarantineEnd g s) := by
  unfold execQuarantineEnd
  split
  · exact monitorKeptIn_same
  · exact monitorKeptIn_linked ((keepsMonitor_elapse s _).trans .untouched)

/-! ### Power -/

/-- A start of core logic finds the monitor DISARMED with both timers stopped (R138). -/
theorem keepsMonitor_fresh {s t : State} (hs : t.monitor.state = .disarmed) (he : t.monitor.elapsed = none)
    (hg : t.monitor.graceLeft = none) : s.KeepsMonitor t := fun _ =>
  have hw : ¬t.monitor.Watching := by simp [hs]
  ⟨fun h => absurd h hw, (timed_idle_iff hw).mpr ⟨he, hg⟩⟩

theorem monitorKeptIn_memoryInitialisation (success : Bool) (s : State) :
    s.MonitorKeptIn (execMemoryInitialisation success s) := by
  unfold execMemoryInitialisation
  split
  · rename_i h
    obtain ⟨-, hop, -⟩ := h
    have hactive : s.ctl.op ≠ .active := by simp [hop]
    have hready : s.KeepsMonitor (arrayReady s) := .inactive hactive
    split
    · refine monitorKeptIn_concluded ?_
      split
      · exact hready.trans (keepsMonitor_settleStandby OpState.noConfusion)
      · exact hready
    · exact monitorKeptIn_next (.inactive hactive)
  · exact monitorKeptIn_same

theorem monitorKeptIn_pwrWarnAsserted (s : State) : s.MonitorKeptIn (execPwrWarnAsserted s) := by
  unfold execPwrWarnAsserted
  simp only
  split
  · exact monitorKeptIn_same
  split
  · exact monitorKeptIn_next .untouched
  split
  · exact monitorKeptIn_concluded (keepsMonitor_startDrain _ _).after
  split
  · rename_i hop
    exact monitorKeptIn_concluded (keepsMonitor_settleStandby (by simp [hop])).after
  · exact monitorKeptIn_next .untouched

/-! ### Every command -/

theorem exec_monitorKeptIn (i : Instr) {s : State} (hs : s.RetainedLaw) : s.MonitorKeptIn (exec i s) := by
  cases i with
  | powerOn => exact monitorKeptIn_ite fun _ => monitorKeptIn_next (keepsMonitor_fresh rfl rfl rfl)
  | warmStart => exact monitorKeptIn_ite fun _ => monitorKeptIn_next (keepsMonitor_fresh rfl rfl rfl)
  | memoryInitialisation success => exact monitorKeptIn_memoryInitialisation success s
  | coreLogicPowerDown => exact monitorKeptIn_ite fun _ => monitorKeptIn_next .untouched
  | pwrWarnAsserted => exact monitorKeptIn_pwrWarnAsserted s
  | pwrWarnDeasserted => exact monitorKeptIn_next .untouched
  | mainPowerLoss => exact monitorKeptIn_ite fun _ => monitorKeptIn_next .untouched
  | mainPowerReturn => exact monitorKeptIn_next .untouched
  | backupSupplyFailure => exact monitorKeptIn_ite fun _ => monitorKeptIn_next .untouched
  | linkDown =>
    exact monitorKeptIn_ite fun _ =>
      monitorKeptIn_concluded ((keepsMonitor_failAllTags _).after.trans (keepsMonitor_linkDownTaken (linkLost s)))
  | linkUp => exact monitorKeptIn_ite fun _ => monitorKeptIn_linked .untouched
  | linkReset =>
    exact monitorKeptIn_ite fun _ =>
      monitorKeptIn_concluded ((keepsMonitor_linkCleared s).trans (keepsMonitor_linkResetTaken _))
  | hostReadData g bs => exact monitorKeptIn_hostReadData g bs s
  | readErrorReturn g => exact monitorKeptIn_readErrorReturn g s
  | linkReadTimeout g => exact monitorKeptIn_linkReadTimeout g s
  | quarantineEnd g => exact monitorKeptIn_quarantineEnd g s
  | messageEnable e g => exact monitorKeptIn_ite fun _ => monitorKeptIn_next .untouched
  | enable => exact monitorKeptIn_enable s
  | quiesce => exact monitorKeptIn_quiesce s
  | functionReset => exact monitorKeptIn_functionReset s
  | adminRingWrite f p v => exact monitorKeptIn_ite fun _ => monitorKeptIn_next .untouched
  | notifySqTail r n => exact monitorKeptIn_notifySqTail r n s
  | notifyCqHead r n => exact monitorKeptIn_notifyCqHead r n s
  | heartbeatWrite v => exact monitorKeptIn_ite fun _ => monitorKeptIn_next (keepsMonitor_takeBeat s _)
  | eventsWrite v => exact monitorKeptIn_ite fun _ => monitorKeptIn_next .untouched
  | registerWriteIgnored o w v => exact monitorKeptIn_same
  | definePartition =>
    exact (monitorKeptIn_taken (fun s r => keepsMonitor_withPartition (keepsMonitor_definePart s r)) s :
      s.MonitorKeptIn (execDefinePartition s))
  | freezePartition =>
    exact (monitorKeptIn_taken (fun s _ => keepsMonitor_withPartition (keepsMonitor_freezePart s)) s :
      s.MonitorKeptIn (execFreezePartition s))
  | releasePartition =>
    exact (monitorKeptIn_taken (fun s _ => keepsMonitor_withPartition (keepsMonitor_releasePart s)) s :
      s.MonitorKeptIn (execReleasePartition s))
  | clearTorn =>
    exact (monitorKeptIn_taken (fun s _ => keepsMonitor_withPartition (keepsMonitor_clearTornPart s)) s :
      s.MonitorKeptIn (execClearTorn s))
  | getPartitions => exact (monitorKeptIn_taken keepsMonitor_getPartitions s : s.MonitorKeptIn (execGetPartitions s))
  | createChannel => exact (monitorKeptIn_taken keepsMonitor_createChannel s : s.MonitorKeptIn (execCreateChannel s))
  | deleteChannel =>
    exact (monitorKeptIn_takeCommand keepsMonitor_conclude
      (fun s _ _ => keepsMonitor_withChannel (keepsMonitor_deleteChan s)) s : s.MonitorKeptIn (execDeleteChannel s))
  | pauseChannel =>
    exact (monitorKeptIn_taken (fun s _ => keepsMonitor_withChannel (keepsMonitor_pauseChan s)) s :
      s.MonitorKeptIn (execPauseChannel s))
  | resumeChannel =>
    exact (monitorKeptIn_taken (fun s _ => keepsMonitor_withChannel (keepsMonitor_resumeChan s)) s :
      s.MonitorKeptIn (execResumeChannel s))
  | createCq => exact (monitorKeptIn_taken keepsMonitor_createCq s : s.MonitorKeptIn (execCreateCq s))
  | deleteCq => exact (monitorKeptIn_taken keepsMonitor_deleteCq s : s.MonitorKeptIn (execDeleteCq s))
  | setRefresh => exact (monitorKeptIn_taken keepsMonitor_setRefresh s : s.MonitorKeptIn (execSetRefresh s))
  | setScrub => exact (monitorKeptIn_taken keepsMonitor_setScrub s : s.MonitorKeptIn (execSetScrub s))
  | getHealth => exact (monitorKeptIn_taken keepsMonitor_getHealth s : s.MonitorKeptIn (execGetHealth s))
  | clearErrors =>
    exact (monitorKeptIn_taken (fun _ _ => keepsMonitor_done .untouched _ _) s : s.MonitorKeptIn (execClearErrors s))
  | setMonitor =>
    exact (monitorKeptIn_takeCommand keepsMonitor_settleLink (fun _ r ho => keepsMonitor_setMonitor ho r) s :
      s.MonitorKeptIn (execSetMonitor s))
  | setLinkTimeout => exact (monitorKeptIn_taken keepsMonitor_setLinkTimeout s : s.MonitorKeptIn (execSetLinkTimeout s))
  | setDrain => exact (monitorKeptIn_taken keepsMonitor_setDrain s : s.MonitorKeptIn (execSetDrain s))
  | enterRetention =>
    exact (monitorKeptIn_takeCommand (body := fun s _ => .waits (startDrain s .hostRequest)) keepsMonitor_conclude
      (fun s _ _ => keepsMonitor_startDrain s _) s : s.MonitorKeptIn (execEnterRetention s))
  | getRetentionRecord =>
    exact (monitorKeptIn_taken keepsMonitor_getRetentionRecord s : s.MonitorKeptIn (execGetRetentionRecord s))
  | claimRetained => exact (monitorKeptIn_taken keepsMonitor_claimRetained s : s.MonitorKeptIn (execClaimRetained s))
  | discardRetained =>
    exact (monitorKeptIn_taken keepsMonitor_discardRetained s : s.MonitorKeptIn (execDiscardRetained s))
  | unknownCommand =>
    exact (monitorKeptIn_taken (fun s _ => keepsMonitor_refused s _) s : s.MonitorKeptIn (execUnknownCommand s))
  | slotSchedulerChoice => exact monitorKeptIn_slotSchedulerChoice s
  | presentation k => exact monitorKeptIn_presentation k s
  | readBurst fs => exact monitorKeptIn_readBurst fs s
  | writeBurst => exact monitorKeptIn_writeBurst s
  | readModifyWrite f => exact monitorKeptIn_readModifyWrite f s
  | refresh => exact monitorKeptIn_ite fun _ => monitorKeptIn_next (keepsMonitor_settlePort _).after
  | scrubLine fs => exact monitorKeptIn_scrubLine fs s
  | selfRefreshEntry =>
    exact monitorKeptIn_ite fun ⟨_, hh⟩ =>
      monitorKeptIn_next (keepsMonitor_entryComplete (retainedLaw_entry_draining hs hh))
  | selfRefreshExit =>
    exact monitorKeptIn_ite fun _ =>
      monitorKeptIn_concluded ((keepsMonitor_exitComplete s).trans (keepsMonitor_takeTriggers _ _))
  | intervalExpiry => exact monitorKeptIn_intervalExpiry s
  | scrubTick => exact monitorKeptIn_scrubTick s
  | delayTimerExpiry r => exact monitorKeptIn_delayTimerExpiry r s
  | periodTimerExpiry => exact monitorKeptIn_periodTimerExpiry s
  | graceTimerExpiry => exact monitorKeptIn_graceTimerExpiry s
  | drainDeadlineExpiry => exact monitorKeptIn_drainDeadlineExpiry s
  | completionWrite r => exact monitorKeptIn_completionWrite r s
  | completionDiscard src => exact monitorKeptIn_completionDiscard src s
  | deleteConversion c => exact monitorKeptIn_ite fun _ => monitorKeptIn_concluded .untouched

/-- Settles O11: every change that leaves ACTIVE disarms the monitor, or comes from a state where none watches. -/
theorem monitorLawKept : Obligations.MonitorLawKept := by
  intro s t hs hm h
  unfold step at h
  split at h
  · cases h
    exact keepsMonitor_idleTick s hm
  · rename_i i rest _
    exact exec_monitorKeptIn i (s := { s with pending := rest }) hs t h hm

end Sys2Proof.Machine
end

section
/-! SUPPORT. QUIESCE, and the Host Monitor's beats and period (R141 to R144, R146, R151, R153). Settles O34 and O38. -/

-- One theorem at a time, as in the tests above: fewer threads than the memory limit allows.
set_option Elab.async false

namespace Sys2Proof.Machine

/-! ### QUIESCE (R151, R153) -/

/-- ACTIVE left for QUIESCING, with the monitor disarmed (R146, R153). -/
def State.quiesced (s : State) : State :=
  { s with ctl := { s.ctl with op := .quiescing }, monitor := s.monitor.disarmed }

theorem exec_quiesce_active {s : State} (hcore : s.power.core = true) (hup : s.link.up = true)
    (ho : s.ctl.op = .active) : exec .quiesce s = .next (conclude s.quiesced) :=
  congrArg Host.Outcome.next (if_pos ⟨by simp [State.reached, hcore, hup], ho⟩)

theorem exec_quiesce_elsewhere {s : State} (ho : s.ctl.op ≠ .active) : exec .quiesce s = .next s :=
  congrArg Host.Outcome.next (if_neg fun h => ho h.2)

/-- Settles O34: no self-refresh entry is asked for in ACTIVE, so the conclusion of QUIESCE adds grants alone. -/
theorem quiesceTaken : Obligations.QuiesceTaken := by
  refine fun s => ⟨fun hcore hup ho he => ?_, exec_quiesce_elsewhere⟩
  have hentry : s.quiesced.EntryLaw := fun hr => by
    have hdraining := he hr
    rw [ho] at hdraining
    cases hdraining
  exact concludes_of_next (exec_quiesce_active hcore hup ho) hentry

/-! ### HEARTBEAT (R141 to R143) -/

section
variable {s : State} {token : BitVec 8}

theorem exec_heartbeatWrite {value : BitVec 32} (hcore : s.power.core = true) (hup : s.link.up = true) :
    exec (.heartbeatWrite value) s = .next (takeBeat s (value.setWidth 8)) :=
  congrArg Host.Outcome.next (if_pos (by simp [State.reached, hcore, hup]))

theorem takeBeat_ignored (h : s.monitor.state = .disarmed ∨ s.monitor.state = .tripped) :
    takeBeat s token = { s with monitor := { s.monitor with last := .ignored } } := by
  obtain h | h := h <;> simp [takeBeat, h]

theorem takeBeat_wrong (h : s.monitor.Watching) (ht : token ≠ s.monitor.beat + 1) :
    takeBeat s token = { s with monitor := { s.monitor with last := .wrong } } := by
  obtain h | h := h <;> simp only [takeBeat, h, if_pos ht]

theorem takeBeat_early {elapsed : Nat} (h : s.monitor.state = .armed) (ht : token = s.monitor.beat + 1)
    (he : s.monitor.elapsed = some elapsed) (hlt : elapsed < s.monitor.earlyLimit) :
    takeBeat s token = { s with monitor := s.monitor.earlyBeat }.raiseAlert .early := by
  simp [takeBeat, h, ht, he, hlt]

theorem takeBeat_accepted {elapsed : Nat} (h : s.monitor.state = .armed) (ht : token = s.monitor.beat + 1)
    (he : s.monitor.elapsed = some elapsed) (hle : s.monitor.earlyLimit ≤ elapsed) :
    takeBeat s token = { s with monitor := s.monitor.accepted } := by
  simp [takeBeat, h, ht, he, hle]

theorem takeBeat_alert (h : s.monitor.state = .alert) (ht : token = s.monitor.beat + 1) :
    takeBeat s token = { s with monitor := s.monitor.accepted } := by
  simp [takeBeat, h, ht]

end

/-! ### The period and its early limit (R138, R144) -/

section
variable {m : Monitor} {e : Nat}

theorem earlyLimit_of_period (h : m.periodCode = some e) : m.earlyLimit = 125 * 2 ^ e * m.window * 10 := by
  simp only [Monitor.earlyLimit, h]
  ring

theorem periodLeft_of_period {elapsed : Nat} (h : m.periodCode = some e) (he : m.elapsed = some elapsed) :
    m.periodLeft = 10000 * 2 ^ e - elapsed := by
  simp [Monitor.periodLeft, periodTenths, h, he]

theorem accepted_of_armed (h : m.state = .armed) :
    m.accepted = { m with beat := m.beat + 1, elapsed := some 0, graceLeft := none, last := .accepted } := by
  simp [Monitor.accepted, h]

end

theorem exec_periodTimerExpiry {s : State} (hcore : s.power.core = true) (h : s.monitor.state = .armed) :
    exec .periodTimerExpiry s = .next (periodExpired (s.elapse s.monitor.periodLeft)) :=
  congrArg Host.Outcome.next (if_pos ⟨hcore, h⟩)

/-- Settles O38: one equation of `takeBeat` for each state and token, and the expiry's from the time left. -/
theorem monitorBeats : Obligations.MonitorBeats := by
  intro s value e hcore m good alert
  refine ⟨fun hup => ?_, fun harmed hp elapsed he => ?_⟩
  · rw [exec_heartbeatWrite hcore hup]
    refine ⟨fun h => ?_, fun h ht => ?_, fun harmed hp ht elapsed he => ⟨fun hlt => ?_, fun hle => ?_⟩,
      fun h ht => ?_⟩
    · rw [takeBeat_ignored h]
    · rw [takeBeat_wrong h ht]
    · rw [takeBeat_early harmed ht he ((earlyLimit_of_period hp).symm ▸ hlt)]
      rfl
    · rw [takeBeat_accepted harmed ht he ((earlyLimit_of_period hp).symm ▸ hle), accepted_of_armed harmed]
    · rw [takeBeat_alert h ht]
      rfl
  · rw [exec_periodTimerExpiry hcore harmed, periodLeft_of_period hp he]
    rfl

end Sys2Proof.Machine
end

section
/-! SUPPORT. Which operations leave the retention record as it is (R161): all but self-refresh entry, the recovery
commands and power-on. -/

-- One theorem at a time, as in the tests above: fewer threads than the memory limit allows.
set_option Elab.async false

namespace Sys2Proof.Machine

/-! ### Time, handing over, vectors and grants -/

@[simp] theorem elapse_record (s : State) (n : Nat) : (s.elapse n).ctl.record = s.ctl.record := rfl

@[simp] theorem handOut_record (s : State) (o : Outbound) : (s.handOut o).ctl.record = s.ctl.record := by
  obtain ⟨q, h⟩ := handOut_eq s o
  rw [h]

@[simp] theorem raise_record (s : State) (c : Cause) : (s.raise c).ctl.record = s.ctl.record :=
  (falls_raise s c).record

@[simp] theorem raiseAlert_record (s : State) (d : AlertDetail) : (s.raiseAlert d).ctl.record = s.ctl.record :=
  raise_record s .monitorAlert

@[simp] theorem handOverAdmin_record (s : State) (st : Status) (v : Word32) :
    (s.handOverAdmin st v).ctl.record = s.ctl.record := by
  obtain ⟨a, h⟩ := handOverAdmin_eq s st v
  rw [h]

@[simp] theorem sendVector_record (s : State) (r : Fin 9) : (sendVector s r).ctl.record = s.ctl.record := by
  obtain ⟨q, rs, h⟩ := sendVector_eq s r
  rw [h]

@[simp] theorem signalRest_record (s : State) (r : Fin 9) : (signalRest s r).ctl.record = s.ctl.record := by
  obtain ⟨q, rs, h⟩ := signalRest_eq s r
  rw [h]

@[simp] theorem writeEntry_record (s : State) (r : Fin 9) (f : Completion) :
    (writeEntry s r f).ctl.record = s.ctl.record := by
  obtain ⟨q, rs, h⟩ := writeEntry_eq s r f
  rw [h]

@[simp] theorem settleLink_record (s : State) : (settleLink s).ctl.record = s.ctl.record :=
  (congrArg (·.ctl.record) (besideTags_settleLink s) :)

@[simp] theorem settlePort_record (s : State) : (settlePort s).ctl.record = s.ctl.record := by
  rw [settlePort_beside]

/-! ### Slots, reads and findings -/

@[simp] theorem advanceSlot_record (s : State) (k : Fin 4) : (advanceSlot s k).ctl.record = s.ctl.record := by
  obtain ⟨ps, a, cs, w, ss, h⟩ := advanceSlot_eq s k
  rw [h]

@[simp] theorem refuseSlot_record (s : State) (k : Fin 4) (st : Status) :
    (refuseSlot s k st).ctl.record = s.ctl.record := by
  obtain ⟨ps, a, cs, w, ss, h⟩ := refuseSlot_eq s k st
  rw [h]

@[simp] theorem checkFields_record (s : State) (k : Fin 4) : (checkFields s k).ctl.record = s.ctl.record := by
  obtain ⟨ps, a, cs, w, ss, h⟩ := checkFields_eq s k
  rw [h]

@[simp] theorem stopBoundSlot_record (s : State) (c : Fin 16) : (stopBoundSlot s c).ctl.record = s.ctl.record := by
  unfold stopBoundSlot
  split
  · rfl
  · exact (falls_stopSlot s _ _).record

@[simp] theorem enterRun_record (s : State) (k : Fin 4) (kind : Kind) :
    (enterRun s k kind).ctl.record = s.ctl.record := by
  obtain ⟨ps, h⟩ := takeRefs_eq s (s.slot k).entry kind
  simp [enterRun, h]

@[simp] theorem scheduleChoice_record (s : State) (k : Fin 4) (c : Fin 16) (turn : Turn) :
    (scheduleChoice s k c turn).ctl.record = s.ctl.record := by
  unfold scheduleChoice
  split
  · rfl
  · exact checkFields_record _ k

@[simp] theorem readTaken_record (s : State) (k : Fin 4) (o : SlotOp) (good : List Byte) (failed : Bool) :
    (readTaken s k o good failed).ctl.record = s.ctl.record := by
  unfold readTaken
  simp only
  split
  · split
    · rfl
    · exact handOut_record s _
  · rfl
  · split <;> rfl
  · rfl

@[simp] theorem readDone_record (s : State) (x : Tag) (bs : List Byte) :
    (readDone s x bs).ctl.record = s.ctl.record := by
  obtain ⟨ps, a, cs, w, ss, fs, f, h⟩ := readDone_eq s x bs
  rw [h]

@[simp] theorem readFailed_record (s : State) (x : Tag) : (readFailed s x).ctl.record = s.ctl.record :=
  (falls_readFailed s x).record

@[simp] theorem failAllTags_record (s : State) : (failAllTags s).ctl.record = s.ctl.record :=
  (falls_failAllTags s).record

@[simp] theorem linkLost_record (s : State) : (linkLost s).ctl.record = s.ctl.record := by
  simp [linkLost]

@[simp] theorem linkCleared_record (s : State) : (linkCleared s).ctl.record = s.ctl.record := by
  simp [linkCleared]

@[simp] theorem reportFindings_record (s : State) (ws : List (Nat × Finding)) :
    (reportFindings s ws).ctl.record = s.ctl.record := by
  obtain ⟨hs, e, q, h⟩ := reportFindings_eq s ws
  rw [h]

/-! ### Passages and drains (R46, R153, R155 to R160): the working record alone is written -/

@[simp] theorem startDrain_record (s : State) (reason : DrainReason) :
    (startDrain s reason).ctl.record = s.ctl.record := (falls_startDrain s reason).record

@[simp] theorem endFlush_record (s : State) (o : FlushOutcome) : (endFlush s o).ctl.record = s.ctl.record :=
  (falls_endFlush s o).record

@[simp] theorem settleStandby_record (s : State) : (settleStandby s).ctl.record = s.ctl.record :=
  (falls_beginSettle _).record

theorem endDeletion_record (s : State) : (endDeletion s).ctl.record = s.ctl.record := by
  obtain ⟨cs, fs, rs, a, h⟩ := endDeletion_eq s
  rw [h]

theorem quiesceStep_record (s : State) : (quiesceStep s).ctl.record = s.ctl.record := by
  obtain ⟨cs, fs, rs, h⟩ := foldl_quiesceChannel_eq allChannels s
  unfold quiesceStep
  simp only [h]
  split
  · split
    · obtain ⟨rs', q, h'⟩ := endQuiesce_eq { s with channels := cs, fetch := fs, rings := rs }
      rw [h']
    · rfl
  · rfl

@[simp] theorem conclude_record (s : State) : (conclude s).ctl.record = s.ctl.record :=
  calc (conclude s).ctl.record
    _ = (settlePhases s).ctl.record := (settlePort_record _).trans (settleLink_record _)
    _ = (quiesceStep (endDeletion s)).ctl.record := ((falls_stopStep _).trans (falls_flushStep _)).record
    _ = s.ctl.record := (quiesceStep_record _).trans (endDeletion_record s)

@[simp] theorem takeTriggers_record (s : State) (l : List DrainReason) :
    (takeTriggers s l).ctl.record = s.ctl.record := by
  unfold takeTriggers
  split
  · rfl
  · exact startDrain_record s _
  · exact startDrain_record s _

@[simp] theorem functionReset_record (s : State) : (functionReset s).ctl.record = s.ctl.record :=
  (falls_stopAllSlots _ _).record

@[simp] theorem linkDownTaken_record (s : State) : (linkDownTaken s).ctl.record = s.ctl.record := by
  unfold linkDownTaken
  split_ifs <;> simp

@[simp] theorem linkResetTaken_record (s : State) : (linkResetTaken s).ctl.record = s.ctl.record := by
  unfold linkResetTaken
  split_ifs <;> simp

@[simp] theorem graceExpired_record (s : State) : (graceExpired s).ctl.record = s.ctl.record := by
  unfold graceExpired trigger
  split <;> simp

@[simp] theorem deadlineExpired_record (s : State) : (deadlineExpired s).ctl.record = s.ctl.record := by
  unfold deadlineExpired
  split <;> simp

/-! ### Blocks that take a command -/

@[simp] theorem takeHead_record (s : State) (r : Fin 9) (n : Nat) : (takeHead s r n).ctl.record = s.ctl.record := by
  unfold takeHead
  simp only
  split
  · rfl
  · unfold faultRing
    simp only
    split <;> simp

@[simp] theorem takeBeat_record (s : State) (token : BitVec 8) : (takeBeat s token).ctl.record = s.ctl.record := by
  unfold takeBeat
  simp only
  split
  · rfl
  · rfl
  · split_ifs <;> simp
  · split <;> rfl

@[simp] theorem accrue_record (s : State) : (accrue s).ctl.record = s.ctl.record := by
  unfold accrue
  split <;> simp

@[simp] theorem scrubTicked_record (s : State) : (scrubTicked s).ctl.record = s.ctl.record := by
  unfold scrubTicked
  simp only
  split <;> simp

@[simp] theorem scrubLineEnd_record (s : State) (fs : List Finding) :
    (scrubLineEnd s fs).ctl.record = s.ctl.record := by
  unfold scrubLineEnd
  simp only [settlePort_record, reportFindings_record]
  split <;> rfl

@[simp] theorem delayExpired_record (s : State) (r : Fin 9) : (delayExpired s r).ctl.record = s.ctl.record := by
  unfold delayExpired
  split <;> simp

@[simp] theorem writeFromChannel_record (s : State) (r : Fin 9) (c : Fin 16) (f : Completion) :
    (writeFromChannel s r c f).ctl.record = s.ctl.record := writeEntry_record _ r f

@[simp] theorem writeFromAdmin_record (s : State) (f : Completion) : (writeFromAdmin s f).ctl.record = s.ctl.record :=
  writeEntry_record _ 0 f

@[simp] theorem writeDrainAdmin_record (s : State) (f : Completion) :
    (writeDrainAdmin s f).ctl.record = s.ctl.record := writeEntry_record _ 0 f

@[simp] theorem writeAtWork_record (s : State) (r : Fin 9) : (writeAtWork s r).ctl.record = s.ctl.record := by
  unfold writeAtWork
  split
  · split <;> simp
  · split
    · rfl
    · split <;> simp

@[simp] theorem writeInFlush_record (s : State) (r : Fin 9) : (writeInFlush s r).ctl.record = s.ctl.record := by
  unfold writeInFlush
  split
  · rfl
  · split
    · split <;> simp
    · rfl

@[simp] theorem discardAtWork_record (s : State) (src : CompletionSource) :
    (discardAtWork s src).ctl.record = s.ctl.record := by
  unfold discardAtWork
  split
  · split <;> simp
  · simp only
    split <;> simp

@[simp] theorem discardInFlush_record (s : State) (src : CompletionSource) :
    (discardInFlush s src).ctl.record = s.ctl.record := by
  unfold discardInFlush
  split
  · rfl
  · split
    · split <;> simp [countUnflushed]
    · rfl

/-! ### Commands of the admin ring (R134) -/

@[simp] theorem done_record (t : State) (st : Status) (v : Word32) :
    (Taken.done t st v).state.ctl.record = t.ctl.record := handOverAdmin_record t st v

@[simp] theorem refused_record (s : State) (st : Status) : (Taken.refused s st).state.ctl.record = s.ctl.record :=
  handOverAdmin_record s st 0

@[simp] theorem postRecord_record (s : State) (r : Record) (bytes : List Byte) :
    (postRecord s r bytes).ctl.record = s.ctl.record := handOut_record s _

theorem withPartition_record {s : State} {r : Record} {body : Fin 16 → Taken}
    (h : ∀ i, (body i).state.ctl.record = s.ctl.record) : (withPartition s r body).state.ctl.record = s.ctl.record := by
  unfold withPartition
  split
  · exact refused_record s _
  · split
    · exact refused_record s _
    · exact h _

theorem withChannel_record {s : State} {r : Record} {body : Fin 16 → Taken}
    (h : ∀ c, (body c).state.ctl.record = s.ctl.record) : (withChannel s r body).state.ctl.record = s.ctl.record := by
  unfold withChannel
  split
  · exact refused_record s _
  · split
    · exact refused_record s _
    · exact h _

theorem definePart_record (s : State) (r : Record) (i : Fin 16) :
    (definePart s r i).state.ctl.record = s.ctl.record := by
  obtain ⟨st, h⟩ | ⟨p, -, h⟩ := definePart_cases s r i <;> simp [h]

theorem freezePart_record (s : State) (i : Fin 16) : (freezePart s i).state.ctl.record = s.ctl.record := by
  unfold freezePart
  split_ifs <;> simp

theorem releasePart_record (s : State) (i : Fin 16) : (releasePart s i).state.ctl.record = s.ctl.record := by
  unfold releasePart
  split_ifs
  · simp
  · exact done_record (freePart s i) _ _
  · rfl

theorem clearTornPart_record (s : State) (i : Fin 16) : (clearTornPart s i).state.ctl.record = s.ctl.record := by
  unfold clearTornPart
  split_ifs <;> simp

theorem getPartitions_record (s : State) (r : Record) : (getPartitions s r).state.ctl.record = s.ctl.record := by
  unfold getPartitions
  split_ifs <;> simp

theorem getHealth_record (s : State) (r : Record) : (getHealth s r).state.ctl.record = s.ctl.record := by
  unfold getHealth
  split_ifs <;> simp

theorem getRetentionRecord_record (s : State) (r : Record) :
    (getRetentionRecord s r).state.ctl.record = s.ctl.record := by
  unfold getRetentionRecord
  split_ifs <;> simp

theorem createChannel_record (s : State) (r : Record) : (createChannel s r).state.ctl.record = s.ctl.record := by
  have hrefused : ∀ st, (Taken.refused s st).state.ctl.record = s.ctl.record := refused_record s
  unfold createChannel
  split
  · exact hrefused _
  split
  · exact hrefused _
  split
  · exact hrefused _
  split
  · exact hrefused _
  split
  · exact hrefused _
  split
  · split
    · exact done_record _ _ _
    · exact hrefused _
  · exact hrefused _

theorem deleteChan_record (s : State) (c : Fin 16) : (deleteChan s c).state.ctl.record = s.ctl.record :=
  stopBoundSlot_record _ c

theorem pauseChan_record (s : State) (c : Fin 16) : (pauseChan s c).state.ctl.record = s.ctl.record := by
  unfold pauseChan
  split_ifs <;> simp

theorem resumeChan_record (s : State) (c : Fin 16) : (resumeChan s c).state.ctl.record = s.ctl.record := by
  unfold resumeChan
  simp only
  split_ifs <;> simp

theorem createCq_record (s : State) (r : Record) : (createCq s r).state.ctl.record = s.ctl.record := by
  unfold createCq
  split
  · simp
  · split_ifs <;> simp

theorem deleteCq_record (s : State) (r : Record) : (deleteCq s r).state.ctl.record = s.ctl.record := by
  unfold deleteCq
  split
  · simp
  · split_ifs <;> simp

theorem setRefresh_record (s : State) (r : Record) : (setRefresh s r).state.ctl.record = s.ctl.record := by
  unfold setRefresh
  simp only
  split_ifs <;> simp

theorem setScrub_record (s : State) (r : Record) : (setScrub s r).state.ctl.record = s.ctl.record := by
  unfold setScrub
  simp only
  split <;> simp

theorem clearErrors_record (s : State) (r : Record) : (clearErrors s r).state.ctl.record = s.ctl.record :=
  done_record _ _ _

theorem setMonitor_record (s : State) (r : Record) : (setMonitor s r).state.ctl.record = s.ctl.record := by
  unfold setMonitor
  simp only
  split_ifs <;> simp

theorem setLinkTimeout_record (s : State) (r : Record) : (setLinkTimeout s r).state.ctl.record = s.ctl.record := by
  unfold setLinkTimeout
  simp only
  split <;> simp

theorem setDrain_record (s : State) (r : Record) : (setDrain s r).state.ctl.record = s.ctl.record := by
  unfold setDrain
  simp only
  split <;> simp

end Sys2Proof.Machine
end

section
/-! SUPPORT. What every command leaves of the retention record (`exec_recordKeptIn`). Settles O16. -/

-- One theorem at a time, as in the tests above: fewer threads than the memory limit allows.
set_option Elab.async false

namespace Sys2Proof.Machine

/-- The retention record is the same in each next state that the outcome can be. -/
def State.RecordKeptIn (s : State) (o : Out) : Prop := ∀ t, o = .next t → t.ctl.record = s.ctl.record

section
variable {s t : State}

@[simp] theorem recordKeptIn_next : s.RecordKeptIn (.next t) ↔ t.ctl.record = s.ctl.record := by
  simp [State.RecordKeptIn]

@[simp] theorem recordKeptIn_fault (f : Fault) : s.RecordKeptIn (.fault f) := fun _ e => nomatch e

theorem recordKeptIn_same : s.RecordKeptIn (.next s) := recordKeptIn_next.mpr rfl

theorem recordKeptIn_ite {p : Prop} [Decidable p] (h : t.ctl.record = s.ctl.record := by simp) :
    s.RecordKeptIn (.next (if p then t else s)) := by
  split
  · exact recordKeptIn_next.mpr h
  · exact recordKeptIn_same

end

/-! ### Commands of the admin ring (R134) -/

/-- What a command of the admin ring leaves, where what follows its effect leaves the record: nothing was taken, or the
record is as the effect left it. -/
theorem takeCommand_record {codes : Nat → Bool} {body : State → Record → Taken} {fin : State → State} {s t : State}
    (hf : ∀ u : State, (fin u).ctl.record = u.ctl.record) (h : takeCommand codes body fin s = .next t) :
    t.ctl.record = s.ctl.record ∨
      ∃ f rest, t.ctl.record = (body (beginCommand s f rest) f.entry).state.ctl.record := by
  unfold takeCommand at h
  split at h
  · cases h
    exact .inl rfl
  · split at h
    · cases h
      exact .inr ⟨_, _, hf _⟩
    · cases h
      exact .inl rfl

theorem recordKeptIn_takeCommand {codes : Nat → Bool} {body : State → Record → Taken} {fin : State → State}
    (hf : ∀ u : State, (fin u).ctl.record = u.ctl.record)
    (hb : ∀ (s : State) (r : Record), (body s r).state.ctl.record = s.ctl.record) (s : State) :
    s.RecordKeptIn (takeCommand codes body fin s) := fun _ h => by
  obtain h | ⟨f, rest, h⟩ := takeCommand_record hf h
  · exact h
  · exact h.trans (hb _ _)

/-- A command of the admin ring that ends with the link settled. -/
theorem recordKeptIn_taken {codes : Nat → Bool} {body : State → Record → Taken}
    (hb : ∀ (s : State) (r : Record), (body s r).state.ctl.record = s.ctl.record) (s : State) :
    s.RecordKeptIn (takeCommand codes body settleLink s) := recordKeptIn_takeCommand settleLink_record hb s

/-- A command of the admin ring with a happening concluded. -/
theorem recordKeptIn_takenConcluded {codes : Nat → Bool} {body : State → Record → Taken}
    (hb : ∀ (s : State) (r : Record), (body s r).state.ctl.record = s.ctl.record) (s : State) :
    s.RecordKeptIn (takeCommand codes body conclude s) := recordKeptIn_takeCommand conclude_record hb s

/-! ### Register writes -/

theorem enableStandby_record (s : State) : (enableStandby s).ctl.record = s.ctl.record := by
  unfold enableStandby
  simp only [conclude_record]
  split
  · rfl
  · exact startDrain_record _ _

theorem recordKeptIn_enable (s : State) : s.RecordKeptIn (execEnable s) := by
  unfold execEnable
  split
  · exact recordKeptIn_same
  split
  · split <;> simp [enableStandby_record]
  · split
    · exact recordKeptIn_same
    · split <;> simp [beginExit]
  all_goals exact recordKeptIn_same

theorem recordKeptIn_functionReset (s : State) : s.RecordKeptIn (execFunctionReset s) := by
  unfold execFunctionReset
  split_ifs <;> simp

theorem recordKeptIn_notifySqTail (ring : BitVec 8) (index : BitVec 16) (s : State) :
    s.RecordKeptIn (execNotifySqTail ring index s) := by
  unfold execNotifySqTail
  split
  · exact recordKeptIn_same
  split
  · unfold notifyAdminTail
    split <;> simp
  split
  · simp
  · unfold notifyChannelTail
    split <;> simp

theorem recordKeptIn_notifyCqHead (ring : BitVec 8) (index : BitVec 16) (s : State) :
    s.RecordKeptIn (execNotifyCqHead ring index s) := by
  unfold execNotifyCqHead
  split
  · exact recordKeptIn_same
  split
  · simp
  split <;> simp

/-! ### The array's care, timers and completions -/

theorem recordKeptIn_scrubLine (fs : List Finding) (s : State) : s.RecordKeptIn (execScrubLine fs s) := by
  unfold execScrubLine
  split_ifs <;> simp

theorem recordKeptIn_intervalExpiry (s : State) : s.RecordKeptIn (execIntervalExpiry s) := by
  unfold execIntervalExpiry
  split
  · exact recordKeptIn_same
  split <;> simp [intervalExpired]

theorem recordKeptIn_scrubTick (s : State) : s.RecordKeptIn (execScrubTick s) := by
  unfold execScrubTick
  split
  · exact recordKeptIn_same
  split <;> simp

theorem recordKeptIn_delayTimerExpiry (r : Fin 9) (s : State) : s.RecordKeptIn (execDelayTimerExpiry r s) := by
  unfold execDelayTimerExpiry
  split
  · exact recordKeptIn_same
  split <;> simp

theorem recordKeptIn_drainDeadlineExpiry (s : State) : s.RecordKeptIn (execDrainDeadlineExpiry s) := by
  unfold execDrainDeadlineExpiry
  split
  · exact recordKeptIn_same
  split <;> simp

theorem recordKeptIn_completionWrite (r : Fin 9) (s : State) : s.RecordKeptIn (execCompletionWrite r s) := by
  unfold execCompletionWrite
  split_ifs <;> simp

theorem recordKeptIn_completionDiscard (src : CompletionSource) (s : State) :
    s.RecordKeptIn (execCompletionDiscard src s) := by
  unfold execCompletionDiscard
  split_ifs <;> simp

/-! ### Descriptors and reads -/

theorem recordKeptIn_slotSchedulerChoice (s : State) : s.RecordKeptIn (execSlotSchedulerChoice s) := by
  unfold execSlotSchedulerChoice
  split
  · exact recordKeptIn_same
  split <;> simp

theorem recordKeptIn_presentation (k : Fin 4) (s : State) : s.RecordKeptIn (execPresentation k s) := by
  unfold execPresentation
  simp only
  split
  · exact recordKeptIn_same
  split
  · exact recordKeptIn_same
  split <;> simp

theorem recordKeptIn_readBurst (fs : List Finding) (s : State) : s.RecordKeptIn (execReadBurst fs s) := by
  unfold execReadBurst
  split
  · exact recordKeptIn_same
  split
  · exact recordKeptIn_same
  split <;> simp [readBurstEnd, releasePort]

theorem recordKeptIn_writeBurst (s : State) : s.RecordKeptIn (execWriteBurst s) := by
  unfold execWriteBurst
  split
  · exact recordKeptIn_same
  split
  · exact recordKeptIn_same
  split <;> simp [writeBurstEnd, removeLines, releasePort]

theorem recordKeptIn_readModifyWrite (f : Finding) (s : State) : s.RecordKeptIn (execReadModifyWrite f s) := by
  unfold execReadModifyWrite
  split
  · exact recordKeptIn_same
  split
  · exact recordKeptIn_same
  split
  · simp only
    split <;> simp [rmwFailed, rmwWritten, orphanReads, releasePort]
  · exact recordKeptIn_fault _

theorem recordKeptIn_hostReadData (g : Fin 16) (bs : List Byte) (s : State) :
    s.RecordKeptIn (execHostReadData g bs s) := by
  unfold execHostReadData
  simp only
  split_ifs <;> simp [readCompletes]

theorem recordKeptIn_readErrorReturn (g : Fin 16) (s : State) : s.RecordKeptIn (execReadErrorReturn g s) := by
  unfold execReadErrorReturn
  split <;> simp

theorem recordKeptIn_linkReadTimeout (g : Fin 16) (s : State) : s.RecordKeptIn (execLinkReadTimeout g s) := by
  unfold execLinkReadTimeout
  split <;> simp [readTimesOut]

theorem recordKeptIn_quarantineEnd (g : Fin 16) (s : State) : s.RecordKeptIn (execQuarantineEnd g s) := by
  unfold execQuarantineEnd
  split <;> simp

/-! ### Power -/

theorem recordKeptIn_memoryInitialisation (success : Bool) (s : State) :
    s.RecordKeptIn (execMemoryInitialisation success s) := by
  unfold execMemoryInitialisation
  split_ifs <;> simp [arrayReady, arrayFailed, releasePort]

theorem recordKeptIn_pwrWarnAsserted (s : State) : s.RecordKeptIn (execPwrWarnAsserted s) := by
  unfold execPwrWarnAsserted
  simp only
  split_ifs <;> simp

/-! ### The commands that write the record (R149, R161, R164) -/

/-- A recovery command refused leaves the record; carried out, it marks it claimed (R164). -/
theorem claimRetained_record (s : State) (r : Record) :
    (claimRetained s r).state.ctl.record = s.ctl.record ∨
      (claimRetained s r).state.ctl.record = { s.ctl.record with claimed := true } := by
  unfold claimRetained
  split
  · exact .inl (refused_record s _)
  · exact .inr (done_record _ _ _)

theorem discardRetained_record (s : State) (r : Record) :
    (discardRetained s r).state.ctl.record = s.ctl.record ∨
      (discardRetained s r).state.ctl.record = { s.ctl.record with claimed := true } := by
  unfold discardRetained
  split
  · exact .inl (refused_record s _)
  · exact .inr (done_record _ _ _)

/-- A recovery command as taken from the admin ring. -/
theorem recovery_record {codes : Nat → Bool} {body : State → Record → Taken} {s t : State}
    (hb : ∀ (s : State) (r : Record), (body s r).state.ctl.record = s.ctl.record ∨
      (body s r).state.ctl.record = { s.ctl.record with claimed := true })
    (h : takeCommand codes body settleLink s = .next t) :
    t.ctl.record = s.ctl.record ∨ t.ctl.record = { s.ctl.record with claimed := true } := by
  obtain h | ⟨f, rest, h⟩ := takeCommand_record settleLink_record h
  · exact .inl h
  · exact (hb (beginCommand s f rest) f.entry).imp h.trans h.trans

theorem powerOn_record {s t : State} (h : exec .powerOn s = .next t) :
    t.ctl.record = s.ctl.record ∨ t.ctl.record.valid = false := by
  obtain ⟨rfl⟩ : _ = t := Host.Outcome.next.inj h
  split
  · exact .inr rfl
  · exact .inl rfl

theorem selfRefreshEntry_record {s t : State} (h : exec .selfRefreshEntry s = .next t) :
    t.ctl.record = s.ctl.record ∨ t.ctl.record = finalRecord s := by
  obtain ⟨rfl⟩ : _ = t := Host.Outcome.next.inj h
  split
  · exact .inr (raise_record _ _)
  · exact .inl rfl

/-! ### Every command -/

/-- The commands that write the retention record. -/
def WritesRecord (i : Instr) : Prop :=
  i = .powerOn ∨ i = .claimRetained ∨ i = .discardRetained ∨ i = .selfRefreshEntry

theorem exec_recordKeptIn {i : Instr} (hi : ¬WritesRecord i) (s : State) : s.RecordKeptIn (exec i s) := by
  cases i with
  | powerOn | claimRetained | discardRetained | selfRefreshEntry => exact absurd (by simp [WritesRecord]) hi
  | warmStart => exact recordKeptIn_ite rfl
  | memoryInitialisation success => exact recordKeptIn_memoryInitialisation success s
  | coreLogicPowerDown => exact recordKeptIn_ite
  | pwrWarnAsserted => exact recordKeptIn_pwrWarnAsserted s
  | pwrWarnDeasserted => exact recordKeptIn_next.mpr rfl
  | mainPowerLoss => exact recordKeptIn_ite
  | mainPowerReturn => exact recordKeptIn_next.mpr rfl
  | backupSupplyFailure => exact recordKeptIn_ite
  | linkDown => exact recordKeptIn_ite
  | linkUp => exact recordKeptIn_ite
  | linkReset => exact recordKeptIn_ite
  | hostReadData g bs => exact recordKeptIn_hostReadData g bs s
  | readErrorReturn g => exact recordKeptIn_readErrorReturn g s
  | linkReadTimeout g => exact recordKeptIn_linkReadTimeout g s
  | quarantineEnd g => exact recordKeptIn_quarantineEnd g s
  | messageEnable e g => exact recordKeptIn_ite
  | enable => exact recordKeptIn_enable s
  | quiesce => exact recordKeptIn_ite
  | functionReset => exact recordKeptIn_functionReset s
  | adminRingWrite f p v => exact recordKeptIn_ite
  | notifySqTail r n => exact recordKeptIn_notifySqTail r n s
  | notifyCqHead r n => exact recordKeptIn_notifyCqHead r n s
  | heartbeatWrite v => exact recordKeptIn_ite
  | eventsWrite v => exact recordKeptIn_ite
  | registerWriteIgnored o w v => exact recordKeptIn_same
  | definePartition =>
    exact (recordKeptIn_taken (fun s r => withPartition_record (definePart_record s r)) s :
      s.RecordKeptIn (execDefinePartition s))
  | freezePartition =>
    exact (recordKeptIn_taken (fun s _ => withPartition_record (freezePart_record s)) s :
      s.RecordKeptIn (execFreezePartition s))
  | releasePartition =>
    exact (recordKeptIn_taken (fun s _ => withPartition_record (releasePart_record s)) s :
      s.RecordKeptIn (execReleasePartition s))
  | clearTorn =>
    exact (recordKeptIn_taken (fun s _ => withPartition_record (clearTornPart_record s)) s :
      s.RecordKeptIn (execClearTorn s))
  | getPartitions => exact (recordKeptIn_taken getPartitions_record s : s.RecordKeptIn (execGetPartitions s))
  | createChannel => exact (recordKeptIn_taken createChannel_record s : s.RecordKeptIn (execCreateChannel s))
  | deleteChannel =>
    exact (recordKeptIn_takenConcluded (fun s _ => withChannel_record (deleteChan_record s)) s :
      s.RecordKeptIn (execDeleteChannel s))
  | pauseChannel =>
    exact (recordKeptIn_taken (fun s _ => withChannel_record (pauseChan_record s)) s :
      s.RecordKeptIn (execPauseChannel s))
  | resumeChannel =>
    exact (recordKeptIn_taken (fun s _ => withChannel_record (resumeChan_record s)) s :
      s.RecordKeptIn (execResumeChannel s))
  | createCq => exact (recordKeptIn_taken createCq_record s : s.RecordKeptIn (execCreateCq s))
  | deleteCq => exact (recordKeptIn_taken deleteCq_record s : s.RecordKeptIn (execDeleteCq s))
  | setRefresh => exact (recordKeptIn_taken setRefresh_record s : s.RecordKeptIn (execSetRefresh s))
  | setScrub => exact (recordKeptIn_taken setScrub_record s : s.RecordKeptIn (execSetScrub s))
  | getHealth => exact (recordKeptIn_taken getHealth_record s : s.RecordKeptIn (execGetHealth s))
  | clearErrors => exact (recordKeptIn_taken clearErrors_record s : s.RecordKeptIn (execClearErrors s))
  | setMonitor => exact (recordKeptIn_taken setMonitor_record s : s.RecordKeptIn (execSetMonitor s))
  | setLinkTimeout => exact (recordKeptIn_taken setLinkTimeout_record s : s.RecordKeptIn (execSetLinkTimeout s))
  | setDrain => exact (recordKeptIn_taken setDrain_record s : s.RecordKeptIn (execSetDrain s))
  | enterRetention =>
    exact (recordKeptIn_takenConcluded (body := fun s _ => .waits (startDrain s .hostRequest))
      (fun s _ => startDrain_record s _) s : s.RecordKeptIn (execEnterRetention s))
  | getRetentionRecord =>
    exact (recordKeptIn_taken getRetentionRecord_record s : s.RecordKeptIn (execGetRetentionRecord s))
  | unknownCommand =>
    exact (recordKeptIn_taken (fun s _ => refused_record s _) s : s.RecordKeptIn (execUnknownCommand s))
  | slotSchedulerChoice => exact recordKeptIn_slotSchedulerChoice s
  | presentation k => exact recordKeptIn_presentation k s
  | readBurst fs => exact recordKeptIn_readBurst fs s
  | writeBurst => exact recordKeptIn_writeBurst s
  | readModifyWrite f => exact recordKeptIn_readModifyWrite f s
  | refresh => exact recordKeptIn_ite (settlePort_record _)
  | scrubLine fs => exact recordKeptIn_scrubLine fs s
  | selfRefreshExit => exact recordKeptIn_ite ((conclude_record _).trans (takeTriggers_record _ _))
  | intervalExpiry => exact recordKeptIn_intervalExpiry s
  | scrubTick => exact recordKeptIn_scrubTick s
  | delayTimerExpiry r => exact recordKeptIn_delayTimerExpiry r s
  | periodTimerExpiry => exact recordKeptIn_ite (raiseAlert_record _ _)
  | graceTimerExpiry => exact recordKeptIn_ite
  | drainDeadlineExpiry => exact recordKeptIn_drainDeadlineExpiry s
  | completionWrite r => exact recordKeptIn_completionWrite r s
  | completionDiscard src => exact recordKeptIn_completionDiscard src s
  | deleteConversion c => exact recordKeptIn_ite

/-- Settles O16: the four commands that write the record, each by what it writes; every other one leaves it. -/
theorem recordReplacedOnlyAtEntry : Obligations.RecordReplacedOnlyAtEntry := by
  intro i s t h
  by_cases hi : WritesRecord i
  · obtain rfl | rfl | rfl | rfl := hi
    · exact (powerOn_record h).imp_right fun hv => .inl ⟨rfl, hv⟩
    · have hc := recovery_record claimRetained_record ((exec_claimRetained s).symm.trans h)
      exact hc.imp_right fun hc => .inr (.inl ⟨.inl rfl, hc⟩)
    · have hc := recovery_record discardRetained_record ((exec_discardRetained s).symm.trans h)
      exact hc.imp_right fun hc => .inr (.inl ⟨.inr rfl, hc⟩)
    · exact (selfRefreshEntry_record h).imp_right fun hf => .inr (.inr ⟨rfl, hf⟩)
  · exact .inl (exec_recordKeptIn hi s t h)

end Sys2Proof.Machine
end

section
/-! SUPPORT. PWR_WARN asserted in STANDBY and in the states without work (R155, R160); and the starts of core logic, its
power-down and the supplies (R149, R162, R163). Settles O30 and O27. -/

-- One theorem at a time, as in the tests above: fewer threads than the memory limit allows.
set_option Elab.async false

namespace Sys2Proof.Machine

/-! ### PWR_WARN outside ACTIVE and QUIESCING (R155) -/

/-- The state with the pin PWR_WARN asserted. -/
def State.warned (s : State) : State := { s with power := { s.power with pwrWarn := true } }

theorem exec_pwrWarnAsserted_of_deasserted {s : State} (hp : s.power.pwrWarn = false) :
    exec .pwrWarnAsserted s =
      .next
        (if s.power.core = false then s.warned
        else if s.atWork then conclude (startDrain s.warned .powerWarn)
        else if s.ctl.op = .standby then conclude (settleStandby s.warned)
        else s.warned) := by
  show execPwrWarnAsserted s = _
  simp only [execPwrWarnAsserted, hp, Bool.false_eq_true, if_false, State.warned, apply_ite Host.Outcome.next]

theorem atWork_standby {s : State} (ho : s.ctl.op = .standby) : s.atWork ≠ true := by
  simp [atWork_iff, ho]

theorem exec_pwrWarnAsserted_standby {s : State} (hp : s.power.pwrWarn = false) (hcore : s.power.core = true)
    (ho : s.ctl.op = .standby) : exec .pwrWarnAsserted s = .next (conclude (settleStandby s.warned)) := by
  rw [exec_pwrWarnAsserted_of_deasserted hp, if_neg (by simp [hcore]), if_neg (atWork_standby ho), if_pos ho]

theorem exec_pwrWarnAsserted_idle {s : State} (hp : s.power.pwrWarn = false)
    (h : s.power.core = false ∨ (s.ctl.op ≠ .standby ∧ s.ctl.op ≠ .active ∧ s.ctl.op ≠ .quiescing)) :
    exec .pwrWarnAsserted s = .next s.warned := by
  rw [exec_pwrWarnAsserted_of_deasserted hp]
  obtain hcore | ⟨hstandby, hactive, hquiescing⟩ := h
  · rw [if_pos hcore]
  · have hw : s.atWork ≠ true := fun e => (atWork_iff.mp e).elim hactive hquiescing
    rw [if_neg hw, if_neg hstandby, ite_self]

/-- A STANDBY that has settled under PWR_WARN goes through no further passage. -/
theorem settlePhases_settledStandby (s : State) :
    settlePhases s.leavesStandby.settledBlank = s.leavesStandby.settledBlank :=
  settlePhases_settledBlank (s := s.leavesStandby) rfl

/-- Settles O30: what a STANDBY without channels and rings settles to, which no passage and but for grants nothing
follows; elsewhere the command's other branches. -/
theorem standbySettles : Obligations.StandbySettles := by
  intro s hp
  refine ⟨fun hcore ho hc hr => ?_, exec_pwrWarnAsserted_idle hp⟩
  have hphases := settlePhases_settledStandby s.warned
  have hlaw : s.warned.leavesStandby.settledBlank.EntryLaw := fun _ => rfl
  have hx := exec_pwrWarnAsserted_standby hp hcore ho
  rw [settleStandby_blank (s := s.warned) hc hr] at hx
  refine ⟨_, hx, ?_⟩
  rw [besideGrants_conclude (hphases.symm ▸ hlaw), hphases]
  rfl

/-! ### Starts of core logic and supplies (R149, R162) -/

theorem holdsRetention_iff {s : State} :
    holdsRetention s = true ↔ s.power.alwaysOn = true ∧ s.ctl.record.valid = true ∧ s.memState = .selfRefresh := by
  simp [holdsRetention, and_assoc]

theorem exec_powerOn {s : State} (hcore : s.power.core = false) (h : holdsRetention s ≠ true) :
    exec .powerOn s = .next (poweredOn s) :=
  congrArg Host.Outcome.next (if_pos ⟨hcore, Bool.eq_false_of_not_eq_true h⟩)

theorem exec_warmStart {s : State} (hcore : s.power.core = false) (h : holdsRetention s = true) :
    exec .warmStart s = .next (warmStarted s) :=
  congrArg Host.Outcome.next (if_pos ⟨hcore, h⟩)

/-- A warm start raises RETENTION_ENTERED, and no other cause stands (R94, R149). -/
theorem warmStarted_events (s : State) : (warmStarted s).events = { causes := 0x40#9, detail := .none } :=
  (by decide : State.reset.events.set .retentionEntered = { causes := 0x40#9, detail := .none })

/-- Settles O27: which start takes place is whether the always-on domain holds a retention; the other commands are each
guarded by their one condition. -/
theorem powerAndSupplies : Obligations.PowerAndSupplies := by
  intro s retains fresh
  refine ⟨fun hcore h => exec_powerOn hcore (h ∘ holdsRetention_iff.mp),
    fun hcore h => ?_, fun hcore ho hm hw hs => ?_, rfl, fun ha => ?_, rfl,
    fun hs => ?_⟩
  · rw [exec_warmStart hcore (holdsRetention_iff.mpr h), ← warmStarted_events s]
    rfl
  · exact congrArg Host.Outcome.next (if_pos ⟨hcore, ho, hm, hw, hs⟩)
  · exact congrArg Host.Outcome.next (if_pos ha)
  · exact congrArg Host.Outcome.next (if_pos hs)

end Sys2Proof.Machine
end

section
/-! SUPPORT. The fields that the words of the register window read as (R176), its whole registers, their 4-byte halves
and the accesses not taken (R175), and what its writes spell. Settles O26. -/

-- One theorem at a time, as in the tests above: fewer threads than the memory limit allows.
set_option Elab.async false

namespace Sys2Proof.Machine

/-! ### A field of bits -/

/-- A field of `len` bits at bit `start` of a 64-bit word made from a number. -/
theorem toNat_extractLsb'_ofNat {n start len : Nat} (h : start + len ≤ 64) :
    ((BitVec.ofNat 64 n).extractLsb' start len).toNat = n / 2 ^ start % 2 ^ len := by
  have hsplit : 2 ^ 64 = 2 ^ start * 2 ^ (64 - start) := by rw [← Nat.pow_add]; congr 1; omega
  rw [BitVec.extractLsb'_toNat, BitVec.toNat_ofNat, Nat.shiftRight_eq_div_pow, hsplit, Nat.mod_mul_right_div_self,
    Nat.mod_mod_of_dvd _ (Nat.pow_dvd_pow 2 (by omega))]

theorem extractLsb'_ofNat_eq {n start len : Nat} {x : BitVec len} (h : start + len ≤ 64)
    (hx : n / 2 ^ start % 2 ^ len = x.toNat) : (BitVec.ofNat 64 n).extractLsb' start len = x :=
  BitVec.eq_of_toNat_eq ((toNat_extractLsb'_ofNat h).trans hx)

theorem getLsbD_ofNat_eq {n i : Nat} {b : Bool} (h : i < 64) (hb : n / 2 ^ i % 2 = b.toNat) :
    (BitVec.ofNat 64 n).getLsbD i = b := by
  rw [BitVec.getLsbD_ofNat, Nat.testBit_eq_decide_div_mod_eq, hb]
  cases b <;> simp [h]

/-- A field of a 4-byte half, as the field of the whole word that it is. -/
theorem extractLsb'_half {v : BitVec 64} {half start len : Nat} (h : start + len ≤ 32) :
    ((v.extractLsb' half 32).setWidth 64).extractLsb' start len = v.extractLsb' (half + start) len := by
  ext i hi
  simp [show start + i < 32 by omega, show start + i < 64 by omega, Nat.add_assoc]

/-! ### Codes fit their fields (R176) -/

theorem Capacity.code_lt (c : Capacity) : c.code < 4 := by cases c <;> decide
theorem OpState.code_lt (o : OpState) : o.code < 16 := by cases o <;> decide
theorem DrainPhase.code_lt (p : DrainPhase) : p.code < 4 := by cases p <;> decide
theorem MonitorState.code_lt (m : MonitorState) : m.code < 4 := by cases m <;> decide
theorem MemState.code_lt (m : MemState) : m.code < 8 := by cases m <;> decide
theorem LastResult.code_lt (r : LastResult) : r.code < 8 := by cases r <;> decide
theorem AlertDetail.code_lt (d : AlertDetail) : d.code < 4 := by cases d <;> decide

/-! ### The words that hold fields (R176) -/

section
variable (s : State)

theorem readIdent_fields :
    (readIdent s).extractLsb' 0 8 = 0x48#8 ∧ ((readIdent s).extractLsb' 16 2).toNat = s.capacity.code ∧
      (readIdent s).extractLsb' 24 24 = 0x081004#24 := by
  have hrevision := Config.revision.isLt
  have hcapacity := s.capacity.code_lt
  refine ⟨extractLsb'_ofNat_eq (by decide) ?_, (toNat_extractLsb'_ofNat (by decide)).trans ?_,
    extractLsb'_ofNat_eq (by decide) ?_⟩
  · rw [BitVec.toNat_ofNat]
    omega
  · omega
  · rw [BitVec.toNat_ofNat]
    omega

theorem readState_fields :
    ((readState s).extractLsb' 0 4).toNat = s.ctl.op.code ∧
      ((readState s).extractLsb' 4 2).toNat = s.ctl.phase.code ∧
      (readState s).getLsbD 6 = s.ctl.retainedPending ∧
      ((readState s).extractLsb' 8 2).toNat = s.monitor.state.code ∧
      ((readState s).extractLsb' 12 3).toNat = s.memState.code ∧
      (readState s).getLsbD 15 = decide (s.power.source = .backup) ∧
      (readState s).getLsbD 16 = s.power.pwrWarn := by
  have hop := s.ctl.op.code_lt
  have hphase := s.ctl.phase.code_lt
  have hpending := s.ctl.retainedPending.toNat_lt
  have hmonitor := s.monitor.state.code_lt
  have hmem := s.memState.code_lt
  have hbackup := (decide (s.power.source = .backup)).toNat_lt
  have hwarn := s.power.pwrWarn.toNat_lt
  have hsource : (if s.power.source = .backup then 1 else 0) = (decide (s.power.source = .backup)).toNat := by
    cases s.power.source <;> rfl
  unfold readState
  rw [hsource]
  refine ⟨(toNat_extractLsb'_ofNat (by decide)).trans ?_, (toNat_extractLsb'_ofNat (by decide)).trans ?_,
    getLsbD_ofNat_eq (by decide) ?_, (toNat_extractLsb'_ofNat (by decide)).trans ?_,
    (toNat_extractLsb'_ofNat (by decide)).trans ?_, getLsbD_ofNat_eq (by decide) ?_,
    getLsbD_ofNat_eq (by decide) ?_⟩ <;> omega

/-- HEARTBEAT and EVENTS, the halves of one word. -/
theorem windowWord_three_fields :
    (windowWord s 3).extractLsb' 0 8 = s.monitor.beat ∧
      ((windowWord s 3).extractLsb' 8 3).toNat = s.monitor.last.code ∧
      (windowWord s 3).extractLsb' 32 9 = s.events.causes ∧
      ((windowWord s 3).extractLsb' 48 2).toNat = s.events.detail.code := by
  have hbeat := s.monitor.beat.isLt
  have hlast := s.monitor.last.code_lt
  have hcauses := s.events.causes.isLt
  have hdetail := s.events.detail.code_lt
  simp only [windowWord, readHeartbeat, readEvents]
  refine ⟨extractLsb'_ofNat_eq (by decide) ?_, (toNat_extractLsb'_ofNat (by decide)).trans ?_,
    extractLsb'_ofNat_eq (by decide) ?_, (toNat_extractLsb'_ofNat (by decide)).trans ?_⟩ <;> omega

/-! ### Reads of registers and of their halves (R175) -/

section
variable {s} {o w : Nat}

theorem readWindow_whole (h : o % 8 = 0) (hcontrol : o ≠ 0x10) (hbeat : o ≠ 0x18) :
    readWindow s o 8 = windowWord s (o / 8) := if_pos ⟨rfl, h, hcontrol, hbeat⟩

theorem readWindow_low (h : o % 8 = 0) :
    readWindow s o 4 = ((windowWord s (o / 8)).extractLsb' 0 32).setWidth 64 := by
  simp [readWindow, h]

theorem readWindow_high (h : o % 8 = 0) :
    readWindow s (o + 4) 4 = ((windowWord s (o / 8)).extractLsb' 32 32).setWidth 64 := by
  have hmod : (o + 4) % 8 = 4 := by omega
  have hdiv : (o + 4) / 8 = o / 8 := by omega
  simp [readWindow, hmod, hdiv]

/-- A register of eight bytes, read in halves. -/
theorem readWindow_halves (h : o % 8 = 0) (hcontrol : o ≠ 0x10) (hbeat : o ≠ 0x18) :
    readWindow s o 4 = ((readWindow s o 8).extractLsb' 0 32).setWidth 64 ∧
      readWindow s (o + 4) 4 = ((readWindow s o 8).extractLsb' 32 32).setWidth 64 := by
  rw [readWindow_whole h hcontrol hbeat]
  exact ⟨readWindow_low h, readWindow_high h⟩

/-- Where no register stands that can be read, any access reads 0. -/
theorem readWindow_of_word_zero (h : windowWord s (o / 8) = 0) : readWindow s o w = 0 := by
  unfold readWindow
  rw [h]
  split_ifs <;> rfl

/-- An access that is no aligned one of 4 or 8 bytes, or that spans two 4-byte registers, reads 0. -/
theorem readWindow_of_not_taken (hwhole : w = 8 → o % 8 = 0 → o = 0x10 ∨ o = 0x18) (hhalf : w = 4 → o % 4 ≠ 0) :
    readWindow s o w = 0 := by
  unfold readWindow
  rw [if_neg (by omega), if_neg (by omega), if_neg (by omega)]

end

/-- The accesses that read 0 (R175): no register, one that cannot be read, or an access that is not taken. -/
theorem readWindow_ignored (o w : Nat)
    (h : (o = 0x10 ∧ w = 8) ∨ (o = 0x18 ∧ w = 8) ∨ o = 0x38 ∨ o = 0x3C ∨ (w ≠ 4 ∧ w ≠ 8) ∨ (o = 0x10 ∧ w = 4) ∨
      (o = 0x14 ∧ w = 4) ∨ (w = 4 ∧ o % 4 ≠ 0) ∨ (w = 8 ∧ o % 8 ≠ 0)) : readWindow s o w = 0 := by
  by_cases hword : o / 8 = 2 ∨ o / 8 = 7
  · refine readWindow_of_word_zero ?_
    obtain h2 | h7 := hword
    · rw [h2]; rfl
    · rw [h7]; rfl
  · exact readWindow_of_not_taken (by omega) (by omega)

end

/-! ### Writes (R166, R175, R176) -/

section
variable (v : BitVec 64)

/-- CONTROL, by the code in its bits 0 and 1. -/
theorem decodeControl_of_code {code : BitVec 2} (o w : Nat) (h : v.extractLsb' 0 2 = code) :
    decodeControl o w v =
      if code = 1#2 then .enable else if code = 2#2 then .quiesce else if code = 3#2 then .functionReset
      else .registerWriteIgnored o w v := by
  unfold decodeControl
  rw [h]
  have hcodes : ∀ c : BitVec 2, c = 0#2 ∨ c = 1#2 ∨ c = 2#2 ∨ c = 3#2 := by decide
  obtain rfl | rfl | rfl | rfl := hcodes code <;> rfl

/-- NOTIFY spells a submission tail or a completion head, by the ring kind in bit 24. -/
theorem decodeNotify_of_kind {kind : Bool} (h : v.getLsbD 24 = kind) :
    decodeNotify v =
      if kind then .notifyCqHead (v.extractLsb' 16 8) (v.extractLsb' 0 16)
      else .notifySqTail (v.extractLsb' 16 8) (v.extractLsb' 0 16) := by
  rw [decodeNotify, h]

/-- The writes that no register takes: read-only registers, no register, or an access that is not taken. -/
theorem decodeRegisterWrite_ignored (o w : Nat)
    (h : o < 0x10 ∨ 0x38 ≤ o ∨ (w ≠ 4 ∧ w ≠ 8) ∨ (w = 8 ∧ (o = 0x10 ∨ o = 0x18)) ∨ (w = 4 ∧ o % 4 ≠ 0) ∨
      (w = 8 ∧ o % 8 ≠ 0)) : decodeRegisterWrite o w v = .registerWriteIgnored o w v := by
  unfold decodeRegisterWrite
  split
  case h_14 => rfl
  all_goals omega

end

/-! ### The obligation -/

/-- Settles O26: a read as a field of the word that holds it, a write by the register it meets. -/
theorem registerWindow : Obligations.RegisterWindow := by
  refine ⟨fun s => ?_, fun v => ?_⟩
  · intro state beat events
    obtain ⟨hident, hcapacity, hlayout⟩ := readIdent_fields s
    obtain ⟨hop, hphase, hpending, hmonitor, hmem, hsource, hwarn⟩ := readState_fields s
    obtain ⟨hbeat, hlast, hcauses, hdetail⟩ := windowWord_three_fields s
    have hidentLow : readWindow s 0x00 4 = ((readIdent s).extractLsb' 0 32).setWidth 64 := readWindow_low rfl
    have hbeatWord : beat = ((windowWord s 3).extractLsb' 0 32).setWidth 64 := readWindow_low (o := 0x18) rfl
    have heventsWord : events = ((windowWord s 3).extractLsb' 32 32).setWidth 64 := readWindow_high (o := 0x18) rfl
    rw [hidentLow, hbeatWord, heventsWord]
    simp only [extractLsb'_half, Nat.reduceAdd, Nat.reduceLeDiff]
    refine ⟨hident, hcapacity, hlayout, hop, hphase, hpending, hmonitor, hmem, hsource, hwarn, hbeat, hlast, hcauses,
      hdetail, readWindow_field s .submissionBase, readWindow_field s .completionBase, readWindow_field s .size,
      fun o ho => ?_, readWindow_ignored s⟩
    have hplace : ∀ o ∈ [0x00, 0x08, 0x20, 0x28, 0x30], o % 8 = 0 ∧ o ≠ 0x10 ∧ o ≠ 0x18 := by decide
    obtain ⟨haligned, hcontrol, hnotBeat⟩ := hplace o ho
    exact readWindow_halves haligned hcontrol hnotBeat
  · refine ⟨decodeControl_of_code v 0x10 4, decodeControl_of_code v 0x10 4, decodeControl_of_code v 0x10 4,
      decodeControl_of_code v 0x10 4, decodeNotify_of_kind v, decodeNotify_of_kind v, rfl, rfl, ?_,
      decodeRegisterWrite_ignored v⟩
    simp only [List.forall_mem_cons, List.not_mem_nil, false_implies, implies_true, and_true]
    exact ⟨⟨rfl, rfl, rfl⟩, ⟨rfl, rfl, rfl⟩, ⟨rfl, rfl, rfl⟩⟩

end Sys2Proof.Machine
end

section
/-! SUPPORT. What a step does: with a command at the front of the queue, and with an empty queue, where the idle step
depends on core power (log entry 6). Settles O1. -/

-- One theorem at a time, as in the tests above: fewer threads than the memory limit allows.
set_option Elab.async false

namespace Sys2Proof.Machine

/-! ### The idle step -/

section
variable {s : State}

theorem idleTick_of_core (h : s.power.core = true) :
    s.idleTick = { s.elapse 10 with link := (s.elapse 10).link.sendAll } := if_pos h

theorem idleTick_of_not_core (h : s.power.core = false) : s.idleTick = s := if_neg (Bool.eq_false_iff.mp h)

/-! ### A step, by the queue -/

theorem step_of_cons {c : Instr} {rest : List Instr} (h : s.pending = c :: rest) :
    step s = exec c { s with pending := rest } := by
  rw [step, h]

theorem step_of_nil (h : s.pending = []) : step s = .next s.idleTick := by
  rw [step, h]

end

/-! ### The obligation -/

/-- Settles O1: a command at the front by the queue's first case, an empty queue by the idle step, with core logic
powered and not. -/
theorem stepRunsFrontCommand : Obligations.StepRunsFrontCommand := by
  refine ⟨fun c rest s hfront => step_of_cons hfront, fun s hempty hcore => ?_, fun s hempty hcore => ?_⟩
  · rw [step_of_nil hempty, idleTick_of_core hcore]
  · rw [step_of_nil hempty, idleTick_of_not_core hcore]

end Sys2Proof.Machine
end
